-- ==== Sys2Proof/Word.lean ====
section
/-! DEFINITION. The word types of the core (00_scope.md R7, R13). -/

namespace Sys2Proof

/-- A state word, lattice word, keystream word, block, seed or register: 64 bits (R7). -/
abbrev Word := BitVec 64

/-- A word of the ARX working state, and of `ARX_C`: 32 bits (R7, R10). -/
abbrev Half := BitVec 32

/-- A message byte (R62). -/
abbrev Byte := BitVec 8

/-- A byte offset into the core's offset space (20_memory.md R60). -/
abbrev Offset := BitVec 32

end Sys2Proof
end

