-- ==== Sys2Proof/Config.lean ====
section
/-! DEFINITION. What an implementation fixes (00_scope.md R8 to R12) and the free values: values the
spec leaves unspecified, which no proof can see. -/

namespace Sys2Proof

/-- The implementation parameters of one CHC instance (R8 to R12). The spec gives them no confirmed
values (93_implementation_defined.md U1, U2), so the machine takes them from the field `par` of its
state, where they are arbitrary (log 1). Their stated ranges are `Params.wf`. -/
structure Params where
  /-- `IV[0..7]`, the initial State (R8). -/
  iv : Vector Word 8
  /-- `LATTICE_CONST` (R9). -/
  latticeConst : Word
  /-- `ARX_C[0..3]` (R10). -/
  arxC : Vector Half 4
  /-- `R_A`, the finalization round count of variant A (R11). -/
  rA : Nat
  /-- `R_B`, the finalization round count of variant B (R11). -/
  rB : Nat
  /-- `MSG_WORDS`, the capacity of `MSG` and of `ORD` in 64-bit words (R12). -/
  msgWords : Nat
deriving DecidableEq, Repr

/-- The defaults the spec gives the parameters and uses in every vector (R8 to R12, decisions D4, D5,
D6, D8, D27). They are the spec's own choice and not confirmed by its source. DESIGN CHOICE (log 1),
unsafe for a claim about the values themselves: only `State.reset` takes them. -/
def Params.default : Params where
  iv := #v[0x6A09E667F3BCC908, 0xBB67AE8584CAA73B, 0x3C6EF372FE94F82B, 0xA54FF53A5F1D36F1,
    0x510E527FADE682D1, 0x9B05688C2B3E6C1F, 0x1F83D9ABFB41BD6B, 0x5BE0CD19137E2179]
  latticeConst := 0x9E3779B97F4A7C15
  arxC := #v[0x61707865, 0x3320646E, 0x79622D32, 0x6B206574]
  rA := 10000
  rB := 250
  msgWords := 512

/-- FREE VALUE: the byte at a byte address of `MSG` that nothing has written since the reset event of
the given number (R44, R231; 93_implementation_defined.md U3). Stable until written (R64). Log 2. -/
opaque Config.unwrittenMsgByte (epoch addr : Nat) : Byte

/-- FREE VALUE: the byte at a byte address of `ORD` that nothing has written since the reset event of
the given number (R44, R231; 93_implementation_defined.md U3). Log 2. -/
opaque Config.unwrittenOrdByte (epoch addr : Nat) : Byte

/-- FREE VALUE: bits 63:1 of a read of `STATUS` while `BUSY = 1`, a fresh value for each such read
(R68; 93_implementation_defined.md U4). Log 4. -/
opaque Config.busyStatusBits (draw : Nat) : BitVec 63

end Sys2Proof
end

