-- ==== Sys2Proof/Syntax.lean ====
section
/-! DEFINITION. The commands of the core, one constructor per row of spec/opcode_table.json
(30_encoding.md R86), and the transactions and events of its host (20_memory.md R60, 00_scope.md R6). -/

namespace Sys2Proof

/-- The eleven commands (R86). Operands are implicit (R87), so no constructor has an argument. -/
inductive Instr
  /-- `NOP`, opcode 0x00 (R182). -/
  | nop
  /-- `INIT`, opcode 0x01 (R183). -/
  | init
  /-- `KSNEXT`, opcode 0x02 (R110). -/
  | ksnext
  /-- `SHUFFLE`, opcode 0x03 (R124). -/
  | shuffle
  /-- `MIX`, opcode 0x04 (R141). -/
  | mix
  /-- `ABSORB1`, opcode 0x05 (R156). -/
  | absorb1
  /-- `ABSORB`, opcode 0x06 (R157). -/
  | absorb
  /-- `FROUND`, opcode 0x07 (R169). -/
  | fround
  /-- `FINAL`, opcode 0x08 (R170). -/
  | final
  /-- `HASH`, opcode 0x09 (R185). -/
  | hash
  /-- `CLR`, opcode 0x0F (R184). -/
  | clr
deriving DecidableEq, Repr

/-- A transaction of the host port: `(kind, offset, size, wdata)` with `kind` read or write (R60). The
size is in bytes. -/
inductive Txn
  | read (offset : Offset) (size : Nat)
  | write (offset : Offset) (size : Nat) (wdata : Word)
deriving DecidableEq, Repr

/-- The port's response to a transaction (R60): `ok(rdata)` of a read, `ok` of a write, or `error`. -/
inductive Response
  | data (rdata : Word)
  | ok
  | error
deriving DecidableEq, Repr

/-- What the host can do (R6): issue a transaction, or assert reset (R230). -/
inductive HostEvent
  | access (t : Txn)
  | reset
deriving DecidableEq, Repr

/-- One input still to come from the host. A command takes a finite, unspecified time (R180, R235);
`early` says that this input reaches the port before the command then in execution has completed, so
that it meets `BUSY = 1`. It has no meaning while no command is in execution. DESIGN CHOICE (logs 5
and 6), safe: every order of arrival is some list of inputs. -/
structure Input where
  event : HostEvent
  early : Bool
deriving DecidableEq, Repr

end Sys2Proof
end

