-- ==== Sys2Proof/WellFormed.lean ====
section
/-! DEFINITION. What makes a command, a transaction and a set of parameters well formed. -/

namespace Sys2Proof

/-- A command has no operand field, no immediate and no mode (30_encoding.md R85, R87): every one is
well formed. -/
def Instr.wf : Instr → Bool
  | .nop => true
  | .init => true
  | .ksnext => true
  | .shuffle => true
  | .mix => true
  | .absorb1 => true
  | .absorb => true
  | .fround => true
  | .final => true
  | .hash => true
  | .clr => true

/-- The only legal transaction is of 8 bytes at an offset that is a multiple of 8 (20_memory.md R61). -/
def Txn.wf : Txn → Bool
  | .read offset size => size == 8 && offset.toNat % 8 == 0
  | .write offset size _ => size == 8 && offset.toNat % 8 == 0

/-- The ranges of the parameters (00_scope.md R11, R12). `IV`, `LATTICE_CONST` and `ARX_C` may hold any
words (R8 to R10). -/
def Params.wf (p : Params) : Bool :=
  decide (0 < p.rA) && decide (p.rA < 2 ^ 32) && decide (0 < p.rB) && decide (p.rB < 2 ^ 32) &&
    decide (1 ≤ p.msgWords) && decide (p.msgWords ≤ 2 ^ 27)

end Sys2Proof
end

