-- ==== Sys2Proof/Decode.lean ====
section
/-! DEFINITION. The command decoder and encoder (30_encoding.md R85 to R89). The decoder is total on
all `2^64` words and rejects by name. -/

namespace Sys2Proof

/-- Why a command word is illegal (R88): both kinds raise `E_OPC` (60_exceptions.md R202). -/
inductive DecodeError
  /-- `cw[63:8]` is not 0. -/
  | reservedBits
  /-- `cw[63:8]` is 0 and `cw[7:0]` is an opcode outside `{0x00 .. 0x09, 0x0F}`. -/
  | unknownOpcode
deriving DecidableEq, Repr

/-- The field `opcode`, `cw[7:0]` (R85). -/
def opcodeField (cw : Word) : Nat := cw.toNat % 256

/-- The field `rsvd`, `cw[63:8]` (R85). -/
def reservedField (cw : Word) : Nat := cw.toNat / 256

/-- The opcode map (R86). -/
def instrOfOpcode : Nat → Option Instr
  | 0x00 => some .nop
  | 0x01 => some .init
  | 0x02 => some .ksnext
  | 0x03 => some .shuffle
  | 0x04 => some .mix
  | 0x05 => some .absorb1
  | 0x06 => some .absorb
  | 0x07 => some .fround
  | 0x08 => some .final
  | 0x09 => some .hash
  | 0x0F => some .clr
  | _ => none

/-- The command a word stands for: `opcode = cw[7:0]`, and `cw[63:8]` must be 0 (R85, R86, R88). No mode
changes it (R89). -/
def decode (cw : Word) : Except DecodeError Instr :=
  if reservedField cw = 0 then
    match instrOfOpcode (opcodeField cw) with
    | some i => .ok i
    | none => .error .unknownOpcode
  else .error .reservedBits

/-- The one encoding of each command: the `match` column of R86. -/
def encode : Instr → Word
  | .nop => 0x0000000000000000
  | .init => 0x0000000000000001
  | .ksnext => 0x0000000000000002
  | .shuffle => 0x0000000000000003
  | .mix => 0x0000000000000004
  | .absorb1 => 0x0000000000000005
  | .absorb => 0x0000000000000006
  | .fround => 0x0000000000000007
  | .final => 0x0000000000000008
  | .hash => 0x0000000000000009
  | .clr => 0x000000000000000F

/-- The 64-bit command word whose low `nbits` bits are those of `w` and whose other bits are 0. -/
def tableWord (nbits w : Nat) : Word := BitVec.ofNat 64 (w % 2 ^ nbits)

/-- The command the decoder reads from an instruction word numbered as spec/opcode_table.json numbers
it. A command is one 64-bit word, whose bits that numbering leaves as they are. -/
def decodeTableWord (nbits w : Nat) : Option Instr :=
  match decode (tableWord nbits w) with
  | .ok i => some i
  | .error _ => none

end Sys2Proof
end

