-- ==== Sys2Proof/Machine/Bits.lean ====
section
/-! DEFINITION. Rotation (00_scope.md R15), the ceiling of a byte count (R14), and the one place where
bytes and words are converted, little-endian (20_memory.md R62). -/

namespace Sys2Proof.Machine

open Sys2Proof

/-- `rotl64(v, n)` for `n` in `0 .. 63`; the identity at `n = 0` (R15). -/
def rotl64 (v : Word) (n : Nat) : Word :=
  if n = 0 then v else (v <<< n) ||| (v >>> (64 - n))

/-- `rotl32(v, n)` for `n` in `0 .. 31` (R15). -/
def rotl32 (v : Half) (n : Nat) : Half :=
  if n = 0 then v else (v <<< n) ||| (v >>> (32 - n))

/-- `ceil(a/8)` as R14 writes it: `(a >> 3) + (1 if a[2:0] != 0 else 0)`. -/
def ceilDiv8 (a : Word) : Word :=
  (a >>> 3) + (if a.toNat % 8 ≠ 0 then 1 else 0)

/-- Byte `k` of a word: bits `8*k + 7 : 8*k` (R62). -/
def byteOf (v : Word) (k : Nat) : Byte := v.extractLsb' (8 * k) 8

/-- The word whose byte `k` is `f k`, for `k = 0..7`, byte 0 least significant (R62). -/
def packBytes (f : Nat → Byte) : Word :=
  f 7 ++ f 6 ++ f 5 ++ f 4 ++ f 3 ++ f 2 ++ f 1 ++ f 0

end Sys2Proof.Machine
end

