-- ==== Sys2Proof/Machine/State.lean ====
section
/-! DEFINITION. The state of one CHC instance (10_state.md R20) as plain data, the ways a step can stop,
and the state after reset (R44). -/

namespace Sys2Proof.Machine

open Sys2Proof

/-- The variant select `VAR = CFG[0]` (R2, R23): 0 is A, 1 is B. -/
inductive Variant
  | A
  | B
deriving DecidableEq, Repr

/-- The sequencer phase (R34). The codes 5, 6 and 7 are never produced (U6; log 17). -/
inductive Phase
  /-- Code 0: no computation under way. -/
  | idle
  /-- Code 1: `S = IV`, nothing shuffled. -/
  | ready
  /-- Code 2: `ORD` holds the permutation, at least one block still to absorb. -/
  | permuted
  /-- Code 3: every block absorbed, fewer than `R(VAR)` rounds done. -/
  | absorbed
  /-- Code 4: `S` is the digest. -/
  | done
deriving DecidableEq, Repr

/-- The error codes of `STATUS.ERRC` (60_exceptions.md R201). The codes above 3 are never produced (U6;
log 17). -/
inductive ErrCode
  /-- Code 0: no error recorded. -/
  | none
  /-- Code 1, `E_OPC`: the word is not an encoding (R202). -/
  | opc
  /-- Code 2, `E_SEQ`: the command is not legal in the phase (R203). -/
  | seq
  /-- Code 3, `E_LEN`: `BCNT > MSG_WORDS` (R204). -/
  | len
deriving DecidableEq, Repr

/-- A byte memory as the list of the bytes written since the last reset event, addresses strictly
rising (`Memory.wf`). What an unlisted address reads as is NO VALUE (`Memory.byte?` answers none): the
spec gives unwritten memory none (R44, R231). Where a value is needed, the free value of the address
stands in (log 2). -/
abbrev Memory := List Host.Cell

/-- Why the machine stops. Every stop is an access of the core itself outside its memories, which
20_memory.md R70 says cannot happen; no run from reset reaches one (log 8). Bus errors and recorded
errors are no stops: the machine goes on (R67, R205). -/
inductive Fault
  /-- Raised by `SHUFFLE`, `ABSORB1`, `ABSORB` and `HASH` at an access to `ORD[t]` with
  `t >= MSG_WORDS`. SAFE: the spec gives that location no existence (R42, R70). -/
  | ordOutside
  /-- Raised by `ABSORB1`, `ABSORB` and `HASH` at an access to `MSG[w]` with `w >= MSG_WORDS`. SAFE: as
  above. -/
  | msgOutside
deriving DecidableEq, Repr

/-- Why an instruction is refused. -/
inductive Refusal
  /-- An instruction without a meaning yet. Raised by no arm of `exec`: every command is modelled.
  SAFE: the machine stops where the hardware goes on. -/
  | notModelled (mnemonic : String)
deriving DecidableEq, Repr

/-- The complete architectural state (R20), then the model's own fields. -/
structure State where
  /-- `S[0..7]` (R21). -/
  sreg : Vector Word 8
  /-- `LEN` (R22). -/
  len : Word
  /-- `VAR`, `CFG[0]` (R23). -/
  var : Variant
  /-- `IE`, `CTRL[0]` (R24). -/
  ie : Bool
  /-- `ERR`, `STATUS[2]` (R25). -/
  err : Bool
  /-- `IP`, `STATUS[3]` (R25). -/
  ip : Bool
  /-- `ERRC`, `STATUS[15:8]` (R25). -/
  errc : ErrCode
  /-- `ERRINFO` (R26). -/
  errinfo : Word
  /-- `KS` (R28). -/
  ks : Word
  /-- `KSOUT` (R29). -/
  ksout : Word
  /-- `MXX` (R30). -/
  mxx : Word
  /-- `MXRP` (R30). -/
  mxrp : Word
  /-- `MXOUT` (R30). -/
  mxout : Word
  /-- `T` (R31). -/
  t : Word
  /-- `RND` (R32). -/
  rnd : BitVec 32
  /-- `PHASE` (R34). -/
  phase : Phase
  /-- `MSG`, by byte address: message byte `a` (R37, R62). -/
  msg : Memory
  /-- `ORD`, by byte address: `ORD[t]` at `8*t .. 8*t+7` (R38; log 10). -/
  ord : Memory
  /-- `BUSY` (R40) and, while it is 1, the command in execution (R180, R230): `BUSY = 1` exactly when
  there is one (log 7). -/
  running : Option Instr
  /-- MODEL: the parameters of this instance (R8 to R12), never written (log 1). -/
  par : Params
  /-- MODEL: the host inputs still to come, the next one first (log 5). -/
  inbox : List Input
  /-- MODEL: the response to the last transaction since reset (R60; log 9). -/
  resp : Option Response
  /-- MODEL: the number of reset events so far, the argument of the free values of unwritten memory
  (log 3). -/
  epoch : Nat
  /-- MODEL: the number of `STATUS` reads made while `BUSY = 1`, the argument of their free bits (log 4). -/
  draws : Nat
deriving DecidableEq, Repr

/-- The machine right after reset (R44): every register 0, phase IDLE, variant A, `BUSY = 0`, nothing
written to `MSG` or `ORD`. The parameters are the spec's defaults (log 1); no host input is waiting. -/
def State.reset : State where
  sreg := #v[0, 0, 0, 0, 0, 0, 0, 0]
  len := 0
  var := .A
  ie := false
  err := false
  ip := false
  errc := .none
  errinfo := 0
  ks := 0
  ksout := 0
  mxx := 0
  mxrp := 0
  mxout := 0
  t := 0
  rnd := 0
  phase := .idle
  msg := []
  ord := []
  running := none
  par := Params.default
  inbox := []
  resp := none
  epoch := 0
  draws := 0

end Sys2Proof.Machine
end

