-- ==== Sys2Proof/Machine/Ops.lean ====
section
/-! DEFINITION. The named operations on memories and on the register file `S`, the entry of a recorded
error and the return from it, and the reset event. -/

namespace Sys2Proof.Machine

open Sys2Proof

/-! Memories. -/

/-- The canonical form (log 18): addresses strictly rising. (An unlisted address reads as no value, so no listed
byte equals what an unlisted one reads as.) -/
def Memory.wf : Memory → Bool
  | [] => true
  | [_] => true
  | c :: d :: rest => decide (c.1 < d.1) && Memory.wf (d :: rest)

/-- The byte last written at an address since reset; none if nothing has been written there (R64). -/
def Memory.byte? : Memory → Nat → Option Byte
  | [], _ => none
  | c :: rest, a => if c.1 = a then some c.2 else Memory.byte? rest a

/-- Writes one byte. -/
def Memory.putByte : Memory → Nat → Byte → Memory
  | [], a, b => [(a, b)]
  | c :: rest, a, b =>
    if a < c.1 then (a, b) :: c :: rest
    else if a = c.1 then (a, b) :: rest
    else c :: Memory.putByte rest a b

/-- Writes the 64-bit word of index `w`: its eight bytes at `8*w .. 8*w + 7`, least significant first
(R62). -/
def Memory.putWord (m : Memory) (w : Nat) (v : Word) : Memory :=
  (List.range 8).foldl (fun m k => Memory.putByte m (8 * w + k) (byteOf v k)) m

/-- Writes `ORD[t], ORD[t+1], ...` with the indices of a list (R124). -/
def Memory.putIndices : Memory → Nat → List Nat → Memory
  | m, _, [] => m
  | m, t, x :: rest => Memory.putIndices (Memory.putWord m t (BitVec.ofNat 64 x)) (t + 1) rest

/-! The register file `S` (R16, R21): indices are taken modulo 8. -/

/-- `S[j mod 8]`. -/
def readS (S : Vector Word 8) (j : Nat) : Word := S[j % 8]'(Nat.mod_lt j (by decide))

/-- `S[j mod 8] <- v`. -/
def writeS (S : Vector Word 8) (j : Nat) (v : Word) : Vector Word 8 :=
  S.set (j % 8) v (Nat.mod_lt j (by decide))

/-! Errors and reset. -/

/-- Error entry, `raise E_x(cw)`: `ERR <- 1; ERRC <- code; ERRINFO <- cw; IP <- 1`, and nothing else
(60_exceptions.md R205). -/
def State.raiseError (s : State) (e : ErrCode) (cw : Word) : State :=
  { s with err := true, errc := e, errinfo := cw, ip := true }

/-- Return from an error, the effect of `CLR` (R184, R207). -/
def State.clearError (s : State) : State :=
  { s with
    phase := .idle, t := 0, rnd := 0, err := false, errc := .none, errinfo := 0, ip := false }

/-- The reset event (R230, R231): every register at its reset value, a command in execution abandoned,
the contents of `MSG` and `ORD` unspecified afresh. The parameters are not affected (R44) and the host
inputs still to come still come (log 15). -/
def State.resetEvent (s : State) : State :=
  { State.reset with par := s.par, inbox := s.inbox, epoch := s.epoch + 1, draws := s.draws }

end Sys2Proof.Machine
end

