-- ==== Sys2Proof/Machine/Flags.lean ====
section
/-! DEFINITION. The flags: the codes of the status fields and the `STATUS` word (10_state.md R25), the
completion flag and the interrupt output (60_exceptions.md R210). No flag depends on a data result. -/

namespace Sys2Proof.Machine

open Sys2Proof

/-- The bit `VAR` of a variant (R23). -/
def Variant.bit : Variant → Bool
  | .A => false
  | .B => true

/-- The variant a written bit `VAR` selects (R23). -/
def variantOfBit : Bool → Variant
  | false => .A
  | true => .B

/-- The phase code of R34. -/
def Phase.code : Phase → BitVec 3
  | .idle => 0
  | .ready => 1
  | .permuted => 2
  | .absorbed => 3
  | .done => 4

/-- The error code of R201. -/
def ErrCode.code : ErrCode → BitVec 8
  | .none => 0x00
  | .opc => 0x01
  | .seq => 0x02
  | .len => 0x03

/-- `BUSY` (R40): 1 while a command executes. -/
def State.busy (s : State) : Bool := s.running.isSome

/-- `STATUS.DONE` (R25): 1 exactly when `PHASE = DONE`. -/
def State.doneBit (s : State) : Bool := decide (s.phase = .done)

/-- The `STATUS` word (R25), bits 63:16 and 7 reserved and 0: from the top, `ERRC`, bit 7, `PHASE`, `IP`,
`ERR`, `DONE`, `BUSY`. -/
def State.status (s : State) : Word :=
  (0 : BitVec 48) ++ s.errc.code ++ (0 : BitVec 1) ++ s.phase.code ++ BitVec.ofBool s.ip ++
    BitVec.ofBool s.err ++ BitVec.ofBool s.doneBit ++ BitVec.ofBool s.busy

/-- A read of `STATUS` while `BUSY = 1`: bit 0 is 1, the other 63 bits are a free value (20_memory.md
R68; log 4). -/
def busyStatus (draw : Nat) : Word := Config.busyStatusBits draw ++ (1 : BitVec 1)

/-- The level output `irq = IE & IP` (R210). -/
def State.irq (s : State) : Bool := s.ie && s.ip

/-- A command completes: `IP <- 1` (R180, R210). -/
def State.complete (s : State) : State := { s with ip := true }

end Sys2Proof.Machine
end

