-- ==== Sys2Proof/Machine/Operands.lean ====
section
/-! DEFINITION. The implicit operands of the commands (30_encoding.md R87): derived values, the
message bytes, the order entries and the lattice vector. -/

namespace Sys2Proof.Machine

open Sys2Proof

/-- `BCNT = ceil(LEN / 8)` (10_state.md R33). -/
def State.bcnt (s : State) : Word := ceilDiv8 s.len

/-- `R(var)`: `R_A` for variant A, `R_B` for variant B (00_scope.md R11). -/
def Params.rounds (p : Params) : Variant → Nat
  | .A => p.rA
  | .B => p.rB

/-- `R(VAR)` (R11). -/
def State.rounds (s : State) : Nat := Params.rounds s.par s.var

/-- `MSG8(a)`, the message byte at byte address `a` (20_memory.md R62); a byte never written since reset
is a free value (R231, U3; log 2). -/
def State.msg8 (s : State) (a : Nat) : Byte :=
  (Memory.byte? s.msg a).getD (Config.unwrittenMsgByte s.epoch a)

/-- The byte at byte address `a` of `ORD`; a byte never written since reset is a free value (log 2). -/
def State.ord8 (s : State) (a : Nat) : Byte :=
  (Memory.byte? s.ord a).getD (Config.unwrittenOrdByte s.epoch a)

/-- `MSG[w]` (R37). -/
def State.msgWord (s : State) (w : Nat) : Word := packBytes fun k => s.msg8 (8 * w + k)

/-- `ORD[t]` (R38). -/
def State.ordWord (s : State) (t : Nat) : Word := packBytes fun k => s.ord8 (8 * t + k)

/-- The message: the bytes `MSG8(0) .. MSG8(LEN-1)` (R37, R190). -/
def State.message (s : State) : List Byte := (List.range s.len.toNat).map s.msg8

/-- The lattice vector as a function of the parameter `LATTICE_CONST`: for `i = 0..63`,
`((i * LATTICE_CONST) mod 2^64) ^ (i*i + 1)` (42_lattice_mixer.md R131). -/
def latticeVec (latticeConst : Word) (i : Nat) : Word :=
  (BitVec.ofNat 64 i * latticeConst) ^^^ BitVec.ofNat 64 (i * i + 1)

/-- `LV[i]`, a constant table of the instance (10_state.md R36). -/
def Params.lv (p : Params) : Nat → Word := latticeVec p.latticeConst

end Sys2Proof.Machine
end

