-- ==== Sys2Proof/Machine/Bus.lean ====
section
/-! DEFINITION. The host-visible offset space (10_state.md R42) and host reads and writes of everything
but `CMD` (20_memory.md R60 to R67). -/

namespace Sys2Proof.Machine

open Sys2Proof

/-- The locations of the register map (R42). -/
inductive Location
  | id | cap | ctrl | cfg | status | errinfo | cmd | len | ks | ksout | mxx | mxrp | mxout | t | rnd
  | bcnt
  | s (j : Nat)
  | lv (i : Nat)
  | msg (w : Nat)
  | ord (t : Nat)
deriving DecidableEq, Repr

/-- The single registers of region `00`, by word index `offset / 8` (R42). -/
def registerAt : Nat → Option Location
  | 0x00 => some .id
  | 0x01 => some .cap
  | 0x02 => some .ctrl
  | 0x03 => some .cfg
  | 0x04 => some .status
  | 0x05 => some .errinfo
  | 0x06 => some .cmd
  | 0x07 => some .len
  | 0x08 => some .ks
  | 0x09 => some .ksout
  | 0x0A => some .mxx
  | 0x0B => some .mxrp
  | 0x0C => some .mxout
  | 0x0D => some .t
  | 0x0E => some .rnd
  | 0x0F => some .bcnt
  | _ => none

/-- The location of an offset that is a multiple of 8, or none where the map has a hole (R42): bits 31:30
select the region (R60), and `MSG` and `ORD` are mapped up to `MSG_WORDS`. -/
def locate (msgWords : Nat) (offset : Offset) : Option Location :=
  let w := offset.toNat % 2 ^ 30 / 8
  match offset.toNat / 2 ^ 30 with
  | 0 =>
    if w < 0x10 then registerAt w
    else if w < 0x18 then some (.s (w - 0x10))
    else if w < 0x40 then none
    else if w < 0x80 then some (.lv (w - 0x40))
    else none
  | 1 => if w < msgWords then some (.msg w) else none
  | 2 => if w < msgWords then some (.ord w) else none
  | _ => none

/-- `ID`, the ASCII bytes "CHARYBD1" (R35). -/
def idValue : Word := 0x4348415259424431

/-- The value a read returns when `BUSY = 0` (R64): reserved bits 0, `CMD` 0, `BCNT` and `STATUS.DONE`
computed at the moment of the read. -/
def readLoc (s : State) : Location → Word
  | .id => idValue
  | .cap => BitVec.ofNat 64 s.par.msgWords
  | .ctrl => (BitVec.ofBool s.ie).setWidth 64
  | .cfg => (BitVec.ofBool s.var.bit).setWidth 64
  | .status => s.status
  | .errinfo => s.errinfo
  | .cmd => 0
  | .len => s.len
  | .ks => s.ks
  | .ksout => s.ksout
  | .mxx => s.mxx
  | .mxrp => s.mxrp
  | .mxout => s.mxout
  | .t => s.t
  | .rnd => s.rnd.setWidth 64
  | .bcnt => s.bcnt
  | .s j => readS s.sreg j
  | .lv i => Params.lv s.par i
  | .msg w => s.msgWord w
  | .ord t => s.ordWord t

/-- The locked class may be written: the phase is IDLE or DONE (R66). -/
def State.unlocked (s : State) : Bool := decide (s.phase = .idle) || decide (s.phase = .done)

/-- A successful write to the locked class: in phase DONE the phase falls to IDLE, and in phase IDLE it
stays (R66). -/
def State.unlock (s : State) : State := { s with phase := .idle }

/-- A write of `v`, when `BUSY = 0`, to any location but `CMD` (R65, R66): the state after it, or none
where the response is `error` and nothing changes (R67). -/
def writeLoc (s : State) (v : Word) : Location → Option State
  | .ctrl => some { s with ie := v.getLsbD 0 }
  | .cfg => if s.unlocked then some { s.unlock with var := variantOfBit (v.getLsbD 0) } else none
  | .status => some { s with ip := s.ip && !v.getLsbD 3 }
  | .len => if s.unlocked then some { s.unlock with len := v } else none
  | .ks => some { s with ks := v }
  | .mxx => some { s with mxx := v }
  | .mxrp => some { s with mxrp := v }
  | .msg w => if s.unlocked then some { s.unlock with msg := Memory.putWord s.msg w v } else none
  | .id => none
  | .cap => none
  | .errinfo => none
  | .cmd => none
  | .ksout => none
  | .mxout => none
  | .t => none
  | .rnd => none
  | .bcnt => none
  | .s _ => none
  | .lv _ => none
  | .ord _ => none

/-- The port answers a transaction. -/
def State.respond (s : State) (r : Response) : State := { s with resp := some r }

/-- A transaction while `BUSY = 1` (R68): a read of `STATUS` responds with bit 0 equal to 1 and a free
value in the other bits; anything else gets `error` and has no effect. -/
def busyAccess (s : State) : Txn → State
  | .read offset size =>
    if size = 8 ∧ offset = 0x20 then
      { s with resp := some (.data (busyStatus s.draws)), draws := s.draws + 1 }
    else s.respond .error
  | .write _ _ _ => s.respond .error

/-- A read when `BUSY = 0` (R61, R64, R67). -/
def hostRead (s : State) (offset : Offset) (size : Nat) : State :=
  if Txn.wf (.read offset size) then
    match locate s.par.msgWords offset with
    | some l => s.respond (.data (readLoc s l))
    | none => s.respond .error
  else s.respond .error

/-- A write when `BUSY = 0` to a location that is not `CMD` (R61, R65, R67). -/
def writeRegister (s : State) (l : Location) (v : Word) : State :=
  match writeLoc s v l with
  | some s' => s'.respond .ok
  | none => s.respond .error

end Sys2Proof.Machine
end

