-- ==== Sys2Proof/Machine/Sequencer.lean ====
section
/-! DEFINITION. Which commands the sequencer accepts (45_control.md R180, R181). -/

namespace Sys2Proof.Machine

open Sys2Proof

/-- The table of R181: the phases in which a command executes. Elsewhere it is refused with `E_SEQ`. -/
def legalIn : Instr → Phase → Bool
  | .nop, _ => true
  | .init, _ => true
  | .ksnext, _ => true
  | .shuffle, p => decide (p = .ready)
  | .mix, _ => true
  | .absorb1, p => decide (p = .permuted)
  | .absorb, p => decide (p = .permuted) || decide (p = .absorbed)
  | .fround, p => decide (p = .absorbed)
  | .final, p => decide (p = .absorbed) || decide (p = .done)
  | .hash, _ => true
  | .clr, _ => true

/-- The commands that check the length of the message (R180 case 4, R204). -/
def checksLength : Instr → Bool
  | .init => true
  | .hash => true
  | .nop | .ksnext | .shuffle | .mix | .absorb1 | .absorb | .fround | .final | .clr => false

/-- `BCNT <= MSG_WORDS`: the message fits (00_scope.md R12). -/
def State.fits (s : State) : Bool := decide (s.bcnt.toNat ≤ s.par.msgWords)

/-- Case 1 of R180: while `ERR = 1` every command but `CLR` is ignored (60_exceptions.md R206). -/
def State.ignores (s : State) (i : Instr) : Bool := s.err && decide (i ≠ .clr)

/-- The command would be carried out: none of the cases 1, 3 and 4 of R180 applies to it. -/
def State.accepts (s : State) (i : Instr) : Bool :=
  !s.ignores i && legalIn i s.phase && (!checksLength i || s.fits)

/-- Cases 1, 3, 4 and 5 of R180 for a decoded command, the first that applies (case 2, `E_OPC`, is the
decoder's): ignored; `E_SEQ`; `E_LEN`; or carried out. `ERRINFO` gets the command word, which is the
command's one encoding (R86, R205; log 14). -/
def gate (i : Instr) (s : State) (body : State → Host.Outcome State Fault Refusal) :
    Host.Outcome State Fault Refusal :=
  if s.ignores i then .next s
  else if !legalIn i s.phase then .next (s.raiseError .seq (encode i))
  else if checksLength i && !s.fits then .next (s.raiseError .len (encode i))
  else body s

/-- Carries on with a further part of a command after a part that may stop. -/
def andThen (o : Host.Outcome State Fault Refusal)
    (f : State → Host.Outcome State Fault Refusal) : Host.Outcome State Fault Refusal :=
  match o with
  | .next s => f s
  | .fault r => .fault r
  | .refused r => .refused r

end Sys2Proof.Machine
end

