-- ==== Sys2Proof/Machine/Mixer.lean ====
section
/-! DEFINITION. The Lattice Mixer and `MIX` (42_lattice_mixer.md R130 to R141). A vector of 64 words is
a function on `0..63`. -/

namespace Sys2Proof.Machine

open Sys2Proof

/-- The last step of both mixers: `v ^ (v >> 29)` (R133, R138). -/
def mixFinish (v : Word) : Word := v ^^^ (v >>> 29)

/-- Term `i` of `mix_A`: `rotl64(vec[i] ^ (x + i*rp), (17*i + rp) & 63)` (R133). -/
def mixTermA (x : Word) (vec : Nat → Word) (rp : Word) (i : Nat) : Word :=
  rotl64 (vec i ^^^ (x + BitVec.ofNat 64 i * rp)) ((i * 17 + rp.toNat) % 64)

/-- `mix_A(x, vec, rp)` (R133). -/
def mixA (x : Word) (vec : Nat → Word) (rp : Word) : Word :=
  mixFinish ((List.range 64).foldl (fun acc i => acc ^^^ mixTermA x vec rp i) x)

/-- `noise[i] = (((x >> (i mod 32)) & 0xFF) + rp + i) mod 256` (R135). -/
def noise (x rp : Word) (i : Nat) : Byte :=
  (((x >>> (i % 32)) &&& 0xFF) + rp + BitVec.ofNat 64 i).setWidth 8

/-- `noiseExt[m] = noise[m mod 64]`, for `m = 0..127` (R136). -/
def noiseExt (x rp : Word) (m : Nat) : Byte := noise x rp (m % 64)

/-- `conv[k]`: the sum over `i = 0..63` of `vec[i] * noiseExt[(64 - k) + i]`, modulo `2^64` (R136). -/
def conv (x : Word) (vec : Nat → Word) (rp : Word) (k : Nat) : Word :=
  (List.range 64).foldl
    (fun acc i => acc + vec i * (noiseExt x rp ((64 - k) + i)).setWidth 64) 0

/-- `mix_B(x, vec, rp)`: the fold of R137 over `conv`, and the last step (R138). -/
def mixB (x : Word) (vec : Nat → Word) (rp : Word) : Word :=
  mixFinish ((List.range 64).foldl
    (fun res i => res ^^^ rotl64 (conv x vec rp i) ((i * 7 + rp.toNat) % 64)) x)

/-- `mix(var, x, vec, rp)` (R139). -/
def mix : Variant → Word → (Nat → Word) → Word → Word
  | .A, x, vec, rp => mixA x vec rp
  | .B, x, vec, rp => mixB x vec rp

/-- What `MIX` writes but `IP`: `MXOUT` (R141). -/
def State.mixOperands (s : State) : State :=
  { s with mxout := mix s.var s.mxx (Params.lv s.par) s.mxrp }

/-- `MIX` (R141). -/
def execMix (s : State) : Host.Outcome State Fault Refusal :=
  gate .mix s fun s => .next s.mixOperands.complete

end Sys2Proof.Machine
end

