-- ==== Sys2Proof/Machine/Keystream.lean ====
section
/-! DEFINITION. The Keystream Generator and `KSNEXT` (40_keystream.md R100 to R110). -/

namespace Sys2Proof.Machine

open Sys2Proof

/-- The multiplier of variant A (R101). -/
def xorshiftMult : Word := 0x2545F4914F6CDD1D

/-- The three xor-shift steps of variant A, in order (R101). -/
def xorshift (seed : Word) : Word :=
  let x := seed
  let x := x ^^^ (x >>> 12)
  let x := x ^^^ (x <<< 25)
  x ^^^ (x >>> 27)

/-- `ks_next_A(seed) -> (word, newSeed)`; the new seed is the value before the multiplication (R101). -/
def ksNextA (seed : Word) : Word × Word :=
  (xorshift seed * xorshiftMult, xorshift seed)

/-- The initial ARX working state `w0[0..15]`: the four constants, the eight derived words `k0..k7`
(R103), the block counter `seed[31:0]`, three zeros (R104). -/
def arxInit (arxC : Vector Half 4) (seed : Word) : Vector Half 16 :=
  let k0 : Half := seed.extractLsb' 0 32
  let k1 : Half := seed.extractLsb' 32 32
  #v[arxC[0], arxC[1], arxC[2], arxC[3],
    k0, k1, k0 ^^^ 0xDEADBEEF, k1 ^^^ 0xCAFEBABE, ~~~k0, ~~~k1, k0 + k1, k0 ^^^ k1,
    k0, 0, 0, 0]

/-- The quarter-round on four words `a, b, c, d`: eight assignments in order (R105; log 16). -/
def quarterWords (a b c d : Half) : Half × Half × Half × Half :=
  let a := a + b
  let d := rotl32 (d ^^^ a) 16
  let c := c + d
  let b := rotl32 (b ^^^ c) 12
  let a := a + b
  let d := rotl32 (d ^^^ a) 8
  let c := c + d
  let b := rotl32 (b ^^^ c) 7
  (a, b, c, d)

/-- `QR(a, b, c, d)`: the quarter-round on the words of the working state at four positions (R105). -/
def quarterRound (w : Vector Half 16) (a b c d : Fin 16) : Vector Half 16 :=
  let q := quarterWords w[a] w[b] w[c] w[d]
  (((w.set a q.1).set b q.2.1).set c q.2.2.1).set d q.2.2.2

/-- One double-round: the column round, then the diagonal round (R106; log 16). -/
def doubleRound (w : Vector Half 16) : Vector Half 16 :=
  let w := quarterRound w 0 4 8 12
  let w := quarterRound w 1 5 9 13
  let w := quarterRound w 2 6 10 14
  let w := quarterRound w 3 7 11 15
  let w := quarterRound w 0 5 10 15
  let w := quarterRound w 1 6 11 12
  let w := quarterRound w 2 7 8 13
  quarterRound w 3 4 9 14

/-- `n` double-rounds. -/
def doubleRounds : Nat → Vector Half 16 → Vector Half 16
  | 0, w => w
  | n + 1, w => doubleRounds n (doubleRound w)

/-- The output words `out[0..15]`: ten double-rounds and the feed-forward of the original state
(R106, R107). -/
def arxBlock (w0 : Vector Half 16) : Vector Half 16 :=
  Vector.zipWith (· + ·) (doubleRounds 10 w0) w0

/-- `ks_next_B(seed) -> (word, newSeed)`: `word = out[0] + (out[1] << 32)`, the seed advances by 1 and
wraps (R108). -/
def ksNextB (arxC : Vector Half 4) (seed : Word) : Word × Word :=
  let out := arxBlock (arxInit arxC seed)
  (out[1] ++ out[0], seed + 1)

/-- `ks_next(var, seed)` (R109). -/
def ksNext (arxC : Vector Half 4) : Variant → Word → Word × Word
  | .A, seed => ksNextA seed
  | .B, seed => ksNextB arxC seed

/-- What `KSNEXT` writes but `IP`: `KSOUT` and `KS` (R110). -/
def State.drawKs (s : State) : State :=
  let d := ksNext s.par.arxC s.var s.ks
  { s with ksout := d.1, ks := d.2 }

/-- `KSNEXT` (R110). -/
def execKsnext (s : State) : Host.Outcome State Fault Refusal :=
  gate .ksnext s fun s => .next s.drawKs.complete

end Sys2Proof.Machine
end

