-- ==== Sys2Proof/Machine/Permutation.lean ====
section
/-! DEFINITION. The Block Permutation and `SHUFFLE` (41_permutation.md R120 to R126). -/

namespace Sys2Proof.Machine

open Sys2Proof

/-- The multiplier of the seed (R121). -/
def seedMult : Word := 0xDEADBEEFCAFEBABE

/-- `seed0 <- (len * 0xDEADBEEFCAFEBABE) mod 2^64` (R121). -/
def seed0 (len : Word) : Word := len * seedMult

/-- Swaps the entries at two positions (R122). -/
def swapAt (order : List Nat) (i j : Nat) : List Nat :=
  (order.set i (order.getD j 0)).set j (order.getD i 0)

/-- The loop of R122 for `i, i-1, ..., 1`: one keystream word `r` per iteration, each draw from the seed
the one before returned, `j = r mod (i + 1)` from the full 64-bit `r`. -/
def shuffleLoop (arxC : Vector Half 4) (var : Variant) : Nat → List Nat → Word → List Nat × Word
  | 0, order, seed => (order, seed)
  | i + 1, order, seed =>
    let d := ksNext arxC var seed
    shuffleLoop arxC var i (swapAt order (i + 1) (d.1.toNat % (i + 2))) d.2

/-- `shuffle(var, len) -> (order, seedEnd)` (R120, R122): the indices of the blocks in the order of their
absorption, and the keystream seed after the last draw. -/
def shuffle (arxC : Vector Half 4) (var : Variant) (len : Word) : List Nat × Word :=
  let n := (ceilDiv8 len).toNat
  shuffleLoop arxC var (n - 1) (List.range n) (seed0 len)

/-- The permutation and the end seed for the state's own `VAR` and `LEN`. -/
def State.shuffled (s : State) : List Nat × Word := shuffle s.par.arxC s.var s.len

/-- What `SHUFFLE` writes but `IP`: `ORD[0..BCNT-1]`, `KS`, `PHASE` (R124). -/
def State.permute (s : State) : State :=
  { s with
    ord := Memory.putIndices s.ord 0 s.shuffled.1
    ks := s.shuffled.2
    phase := if s.bcnt = 0 then .absorbed else .permuted }

/-- The body of `SHUFFLE`. The entries it writes lie inside `ORD`, because the phase READY guarantees
`BCNT <= MSG_WORDS` (R70, R124); the fault stands where they would not. -/
def shuffleBody (s : State) : Host.Outcome State Fault Refusal :=
  if s.fits then .next s.permute else .fault .ordOutside

/-- `SHUFFLE` (R124). -/
def execShuffle (s : State) : Host.Outcome State Fault Refusal :=
  gate .shuffle s fun s => andThen (shuffleBody s) fun s => .next s.complete

end Sys2Proof.Machine
end

