-- ==== Sys2Proof/Machine/Absorption.lean ====
section
/-! DEFINITION. The Absorption Schedule, `ABSORB1` and `ABSORB` (43_absorption.md R150 to R159). -/

namespace Sys2Proof.Machine

open Sys2Proof

/-- `load_block(len, index)`: the eight bytes of the block, those at or beyond `len` replaced by zeros
(R151). -/
def loadBlock (msg8 : Nat → Byte) (len index : Word) : Word :=
  packBytes fun k =>
    if 8 * index.toNat + k < len.toNat then msg8 (8 * index.toNat + k) else 0

/-- Step 1, binding: `raw ^ len ^ (index << 3)` (R152). -/
def bindBlock (raw len index : Word) : Word := raw ^^^ len ^^^ (index <<< 3)

/-- Iteration `j` of step 2, in place: `m = block ^ S[(j+5) mod 8]`, then
`S[j] <- mix(S[j] ^ m, LV, index + j + 1)` (R153). -/
def absorbWord (lv : Nat → Word) (var : Variant) (block index : Word) (S : Vector Word 8) (j : Nat) :
    Vector Word 8 :=
  writeS S j (mix var (readS S j ^^^ (block ^^^ readS S (j + 5))) lv (index + BitVec.ofNat 64 j + 1))

/-- Step 3, the word permutation: two simultaneous 4-cycles (R154). -/
def permuteWords (S : Vector Word 8) : Vector Word 8 :=
  #v[S[4], S[5], S[6], S[7], S[2], S[3], S[0], S[1]]

/-- `absorb_block(var, S, len, index)` (R155). -/
def absorbBlock (lv : Nat → Word) (var : Variant) (msg8 : Nat → Byte) (len : Word)
    (S : Vector Word 8) (index : Word) : Vector Word 8 :=
  let block := bindBlock (loadBlock msg8 len index) len index
  permuteWords ((List.range 8).foldl (absorbWord lv var block index) S)

/-- The blocks of a list of indices absorbed one after another (R150). -/
def absorbList (lv : Nat → Word) (var : Variant) (msg8 : Nat → Byte) (len : Word)
    (S : Vector Word 8) (indices : List Nat) : Vector Word 8 :=
  indices.foldl (fun S i => absorbBlock lv var msg8 len S (BitVec.ofNat 64 i)) S

/-- What absorbing the block `index` writes but `IP`: `S`, `T` and, after the last block, `PHASE`
(R156). -/
def State.absorbAt (s : State) (index : Word) : State :=
  { s with
    sreg := absorbBlock (Params.lv s.par) s.var s.msg8 s.len s.sreg index
    t := s.t + 1
    phase := if s.t + 1 = s.bcnt then .absorbed else s.phase }

/-- One iteration of the schedule: the block `ORD[T]` (R156). Neither access can fall outside its memory
in a run (R70); the faults stand where it would. -/
def absorbStep (s : State) : Host.Outcome State Fault Refusal :=
  if s.t.toNat < s.par.msgWords then
    if (s.ordWord s.t.toNat).toNat < s.par.msgWords then
      .next (s.absorbAt (s.ordWord s.t.toNat))
    else .fault .msgOutside
  else .fault .ordOutside

/-- The loop of R157, `while PHASE = PERMUTED`, for at most `n` iterations. -/
def absorbLoop : Nat → State → Host.Outcome State Fault Refusal
  | 0, s => .next s
  | n + 1, s =>
    if s.phase = .permuted then andThen (absorbStep s) (absorbLoop n) else .next s

/-- All remaining blocks (R157). Every iteration that does not stop adds 1 to a `T` below `MSG_WORDS`, so
`MSG_WORDS + 1` iterations end the loop (log 13). -/
def absorbBody (s : State) : Host.Outcome State Fault Refusal := absorbLoop (s.par.msgWords + 1) s

/-- `ABSORB1` (R156). -/
def execAbsorb1 (s : State) : Host.Outcome State Fault Refusal :=
  gate .absorb1 s fun s => andThen (absorbStep s) fun s => .next s.complete

/-- `ABSORB` (R157). -/
def execAbsorb (s : State) : Host.Outcome State Fault Refusal :=
  gate .absorb s fun s => andThen (absorbBody s) fun s => .next s.complete

end Sys2Proof.Machine
end

