-- ==== Sys2Proof/Machine/Finalization.lean ====
section
/-! DEFINITION. The Finalization Schedule, `FROUND` and `FINAL` (44_finalization.md R165 to R172). -/

namespace Sys2Proof.Machine

open Sys2Proof

/-- Iteration `j` of the word loop of round `r`, in place:
`S[j] <- mix(S[j] ^ S[(j+2) mod 8], LV, r + j)` (R166). -/
def finalWord (lv : Nat → Word) (var : Variant) (r : Word) (S : Vector Word 8) (j : Nat) :
    Vector Word 8 :=
  writeS S j (mix var (readS S j ^^^ readS S (j + 2)) lv (r + BitVec.ofNat 64 j))

/-- The state swap of round `r`: `S[r mod 8]` with `S[(r+4) mod 8]` (R167). -/
def swapWords (S : Vector Word 8) (r : Nat) : Vector Word 8 :=
  writeS (writeS S r (readS S (r + 4))) (r + 4) (readS S r)

/-- `final_round(var, S, r)` (R168). -/
def finalRound (lv : Nat → Word) (var : Variant) (S : Vector Word 8) (r : Nat) : Vector Word 8 :=
  swapWords ((List.range 8).foldl (finalWord lv var (BitVec.ofNat 64 r)) S) r

/-- The rounds `0, 1, ..., n-1` in that order (R165). -/
def finalRounds (lv : Nat → Word) (var : Variant) (S : Vector Word 8) (n : Nat) : Vector Word 8 :=
  (List.range n).foldl (finalRound lv var) S

/-- What one round writes but `IP`: `S`, `RND` and, after the last round, `PHASE` (R169). -/
def State.finalStep (s : State) : State :=
  { s with
    sreg := finalRound (Params.lv s.par) s.var s.sreg s.rnd.toNat
    rnd := s.rnd + 1
    phase := if s.rnd + 1 = BitVec.ofNat 32 s.rounds then .done else s.phase }

/-- The loop of R170, `while PHASE = ABSORBED`, for at most `n` iterations. -/
def finalLoop : Nat → State → State
  | 0, s => s
  | n + 1, s => if s.phase = .absorbed then finalLoop n s.finalStep else s

/-- The number of rounds after which `RND`, counting modulo `2^32`, next reaches `R(VAR)`: `R(VAR) - RND`
in a run, where `RND < R(VAR)` (R32; log 13). -/
def State.roundsLeft (s : State) : Nat := (BitVec.ofNat 32 s.rounds - s.rnd - 1).toNat + 1

/-- All remaining rounds (R170). -/
def State.finalize (s : State) : State := finalLoop s.roundsLeft s

/-- `FROUND` (R169). -/
def execFround (s : State) : Host.Outcome State Fault Refusal :=
  gate .fround s fun s => .next s.finalStep.complete

/-- `FINAL` (R170). -/
def execFinal (s : State) : Host.Outcome State Fault Refusal :=
  gate .final s fun s => .next s.finalize.complete

end Sys2Proof.Machine
end

