-- ==== Sys2Proof/Machine/Control.lean ====
section
/-! DEFINITION. The control commands `NOP`, `INIT`, `CLR` and `HASH`, and the digest function
(45_control.md R182 to R186). -/

namespace Sys2Proof.Machine

open Sys2Proof

/-- `digest` over a message given by its length and its bytes (R186): the shuffled blocks absorbed into
`IV`, then `R(var)` rounds. -/
def digestOf (p : Params) (var : Variant) (len : Word) (msg8 : Nat → Byte) : Vector Word 8 :=
  finalRounds (Params.lv p) var
    (absorbList (Params.lv p) var msg8 len p.iv (shuffle p.arxC var len).1) (Params.rounds p var)

/-- `digest(var, msg)` of a byte sequence (R186). -/
def digest (p : Params) (var : Variant) (msg : List Byte) : Vector Word 8 :=
  digestOf p var (BitVec.ofNat 64 msg.length) fun a => msg.getD a 0

/-- What `INIT` writes but `IP`: `S <- IV`, `T <- 0`, `RND <- 0`, `PHASE <- READY` (R183). -/
def State.begin (s : State) : State :=
  { s with sreg := s.par.iv, t := 0, rnd := 0, phase := .ready }

/-- `NOP` (R182). -/
def execNop (s : State) : Host.Outcome State Fault Refusal :=
  gate .nop s fun s => .next s.complete

/-- `INIT` (R183). -/
def execInit (s : State) : Host.Outcome State Fault Refusal :=
  gate .init s fun s => .next s.begin.complete

/-- `HASH` (R185): the bodies of `INIT`, `SHUFFLE`, `ABSORB` and `FINAL` in this order, as one command. -/
def execHash (s : State) : Host.Outcome State Fault Refusal :=
  gate .hash s fun s =>
    andThen (shuffleBody s.begin) fun s =>
      andThen (absorbBody s) fun s => .next s.finalize.complete

/-- `CLR` (R184): the return from an error; `IP` stays 0. -/
def execClr (s : State) : Host.Outcome State Fault Refusal :=
  gate .clr s fun s => .next s.clearError

end Sys2Proof.Machine
end

