-- ==== Sys2Proof/Machine/Dispatch.lean ====
section
/-! DEFINITION. One arm per command, each one call of its meaning. -/

namespace Sys2Proof.Machine

open Sys2Proof

def exec (i : Instr) (s : State) : Host.Outcome State Fault Refusal :=
  match i with
  | .nop => Sys2Proof.Machine.execNop s
  | .init => Sys2Proof.Machine.execInit s
  | .ksnext => Sys2Proof.Machine.execKsnext s
  | .shuffle => Sys2Proof.Machine.execShuffle s
  | .mix => Sys2Proof.Machine.execMix s
  | .absorb1 => Sys2Proof.Machine.execAbsorb1 s
  | .absorb => Sys2Proof.Machine.execAbsorb s
  | .fround => Sys2Proof.Machine.execFround s
  | .final => Sys2Proof.Machine.execFinal s
  | .hash => Sys2Proof.Machine.execHash s
  | .clr => Sys2Proof.Machine.execClr s

end Sys2Proof.Machine
end

