-- ==== Sys2Proof/Machine/Port.lean ====
section
/-! DEFINITION. The life of a command (45_control.md R180), the service of one host event, and the order
of the two agents (00_scope.md R6). -/

namespace Sys2Proof.Machine

open Sys2Proof

/-- The next host input reaches the port before the command that starts now has completed (log 6). -/
def State.nextIsEarly (s : State) : Bool :=
  match s.inbox with
  | [] => false
  | e :: _ => e.early

/-- A write of `cw` to `CMD`, accepted by the port (R180). Case 1: ignored while `ERR = 1`, undecoded.
Case 2: `E_OPC`. Otherwise the command's meaning decides; where it would be carried out and a host
input comes before its end, the command stays in execution with `BUSY = 1`. -/
def issue (s : State) (cw : Word) : Host.Outcome State Fault Refusal :=
  if s.err && decide (cw ≠ encode .clr) then .next s
  else
    match decode cw with
    | .error _ => .next (s.raiseError .opc cw)
    | .ok i =>
      if s.accepts i && s.nextIsEarly then .next { s with running := some i }
      else exec i s

/-- The command in execution, if any, completes: it is carried out in full and `BUSY <- 0` (R180 case 5).
Without one the core is idle and holds all its state (60_exceptions.md R218). Log 11. -/
def completeRunning (s : State) : Host.Outcome State Fault Refusal :=
  match s.running with
  | none => .next s
  | some i => exec i { s with running := none }

/-- A write transaction when `BUSY = 0` (R61, R65, R67). -/
def hostWrite (s : State) (offset : Offset) (size : Nat) (v : Word) :
    Host.Outcome State Fault Refusal :=
  if Txn.wf (.write offset size v) then
    match locate s.par.msgWords offset with
    | some .cmd => issue (s.respond .ok) v
    | some l => .next (writeRegister s l v)
    | none => .next (s.respond .error)
  else .next (s.respond .error)

/-- One host event. -/
def serve (s : State) : HostEvent → Host.Outcome State Fault Refusal
  | .reset => .next s.resetEvent
  | .access t =>
    if s.busy then .next (busyAccess s t)
    else
      match t with
      | .read offset size => .next (hostRead s offset size)
      | .write offset size v => hostWrite s offset size v

/-- One move of the machine: the host's next input, or the end of the command in execution where no early
input comes before it. -/
def advance (s : State) : Host.Outcome State Fault Refusal :=
  match s.inbox with
  | [] => completeRunning s
  | e :: rest =>
    if s.busy && !e.early then completeRunning s
    else serve { s with inbox := rest } e.event

/-- The write of a command word to `CMD` (offset 0x030), not early. -/
def commandWrite (cw : Word) : Input := { event := .access (.write 0x30 8 cw), early := false }

/-- The machine about to take a write of `cw` to `CMD` as its next and only input, with no command in
execution: a command is the data of one such write (20_memory.md R74). -/
def State.withCommand (s : State) (cw : Word) : State :=
  { s with running := none, inbox := [commandWrite cw] }

end Sys2Proof.Machine
end

