-- ==== Sys2Proof/Machine/Script.lean ====
section
/-! DEFINITION. The host-script notation (30_encoding.md R90): each line as the transactions it stands
for. -/

namespace Sys2Proof.Machine

open Sys2Proof

/-- The offset of a location: the map of 10_state.md R42 read the other way. -/
def offsetOf : Location → Offset
  | .id => 0x00000000
  | .cap => 0x00000008
  | .ctrl => 0x00000010
  | .cfg => 0x00000018
  | .status => 0x00000020
  | .errinfo => 0x00000028
  | .cmd => 0x00000030
  | .len => 0x00000038
  | .ks => 0x00000040
  | .ksout => 0x00000048
  | .mxx => 0x00000050
  | .mxrp => 0x00000058
  | .mxout => 0x00000060
  | .t => 0x00000068
  | .rnd => 0x00000070
  | .bcnt => 0x00000078
  | .s j => BitVec.ofNat 32 (0x00000080 + 8 * j)
  | .lv i => BitVec.ofNat 32 (0x00000200 + 8 * i)
  | .msg w => BitVec.ofNat 32 (0x40000000 + 8 * w)
  | .ord t => BitVec.ofNat 32 (0x80000000 + 8 * t)

/-- A location that the map holds in an instance with `MSG_WORDS` words (R42). -/
def Location.mapped (msgWords : Nat) : Location → Bool
  | .s j => decide (j < 8)
  | .lv i => decide (i < 64)
  | .msg w => decide (w < msgWords)
  | .ord k => decide (k < msgWords)
  | .id | .cap | .ctrl | .cfg | .status | .errinfo | .cmd | .len | .ks | .ksout | .mxx | .mxrp
  | .mxout | .t | .rnd | .bcnt => true

/-- The lines of a host script (R90). A register name is a location; `WR` and `RD` also take a numeric
offset. -/
inductive ScriptLine
  | wr (reg : Location) (value : Word)
  | wrOffset (offset : Offset) (value : Word)
  | rd (reg : Location)
  | rdOffset (offset : Offset)
  | cmd (i : Instr)
  | wait
  | loadMsg (bytes : List Byte)
  | rdDigest
  | comment
deriving DecidableEq, Repr

/-- `MemWrite(offset, 8, v)`, once no command is in execution (R61). -/
def memWrite (offset : Offset) (v : Word) : Input :=
  { event := .access (.write offset 8 v), early := false }

/-- `MemRead(offset, 8)`, once no command is in execution (R61). -/
def memRead (offset : Offset) : Input := { event := .access (.read offset 8), early := false }

/-- Block `w` of a message packed for `MSG[w]`, lanes beyond the end of the message written as 0 (R62, R90). -/
def packedWord (bytes : List Byte) (w : Nat) : Word := packBytes fun k => bytes.getD (8 * w + k) 0

/-- `WAIT`: `RD STATUS` until bit 0 is 0. A read that is not early comes after the end of the command in
execution and finds bit 0 equal to 0, so it is one read (log 12). -/
def waitInputs : List Input := [memRead (offsetOf .status)]

/-- The transactions of a line (R90). `CMD` is followed by an implicit `WAIT`. -/
def ScriptLine.inputs : ScriptLine → List Input
  | .wr reg value => [memWrite (offsetOf reg) value]
  | .wrOffset offset value => [memWrite offset value]
  | .rd reg => [memRead (offsetOf reg)]
  | .rdOffset offset => [memRead offset]
  | .cmd i => memWrite (offsetOf .cmd) (encode i) :: waitInputs
  | .wait => waitInputs
  | .loadMsg bytes =>
    (List.range ((bytes.length + 7) / 8)).map
        (fun w => memWrite (offsetOf (.msg w)) (packedWord bytes w)) ++
      [memWrite (offsetOf .len) (BitVec.ofNat 64 bytes.length)]
  | .rdDigest => (List.range 8).map fun j => memRead (offsetOf (.s j))
  | .comment => []

/-- The transactions of a whole script, in order. -/
def scriptInputs (lines : List ScriptLine) : List Input := lines.flatMap ScriptLine.inputs

end Sys2Proof.Machine
end

