-- ==== Sys2Proof/Safety.lean ====
section
/-! DEFINITION. The terms claims use: what holds of every state of a run, which states a run reaches, and
commands issued one after another. -/

namespace Sys2Proof.Machine

open Sys2Proof

/-- Every listed byte lies inside a memory of `n` 64-bit words (20_memory.md R70). -/
def Memory.within (n : Nat) (m : Memory) : Prop := ∀ c ∈ m, c.1 < 8 * n

/-- The error fields agree: `ERRC` and `ERRINFO` are 0 when `ERR = 0`, and `ERRC` is not 0 when `ERR = 1`
(10_state.md R25, R26; 60_exceptions.md R201). -/
def State.errorFieldsAgree (s : State) : Prop :=
  (s.err = false → s.errc = .none ∧ s.errinfo = 0) ∧ (s.err = true → s.errc ≠ .none)

/-- A command in execution is one that was accepted and, the state being held, still would be (R180). -/
def State.runningAccepted (s : State) : Prop := ∀ i, s.running = some i → s.accepts i = true

/-- `ORD[0..BCNT-1]` holds the Permutation Order of `VAR` and `LEN` (10_state.md R43 item 3). -/
def State.orderHolds (s : State) : Prop :=
  ∀ k, k < s.bcnt.toNat → s.ordWord k = BitVec.ofNat 64 (s.shuffled.1.getD k 0)

/-- `S` after the first `n` blocks of the Permutation Order, from `IV` (45_control.md R186). -/
def State.absorbedUpTo (s : State) (n : Nat) : Vector Word 8 :=
  absorbList (Params.lv s.par) s.var s.msg8 s.len s.par.iv (s.shuffled.1.take n)

/-- `S` after all blocks and the first `r` rounds (R186). -/
def State.finalizedUpTo (s : State) (r : Nat) : Vector Word 8 :=
  finalRounds (Params.lv s.par) s.var (s.absorbedUpTo s.bcnt.toNat) r

/-- What each phase says of the sequencer position and of `S` (10_state.md R31, R32, R34; 45_control.md
R190). -/
def State.phaseHolds (s : State) : Prop :=
  match s.phase with
  | .idle => True
  | .ready => s.fits = true ∧ s.sreg = s.par.iv ∧ s.t = 0 ∧ s.rnd = 0
  | .permuted =>
    s.fits = true ∧ s.orderHolds ∧ s.t.toNat < s.bcnt.toNat ∧ s.rnd = 0 ∧
      s.sreg = s.absorbedUpTo s.t.toNat
  | .absorbed =>
    s.fits = true ∧ s.orderHolds ∧ s.t = s.bcnt ∧ s.rnd.toNat < s.rounds ∧
      s.sreg = s.finalizedUpTo s.rnd.toNat
  | .done =>
    s.fits = true ∧ s.orderHolds ∧ s.t = s.bcnt ∧ s.rnd.toNat = s.rounds ∧
      s.sreg = s.finalizedUpTo s.rounds

/-- The invariant of a run. -/
def State.Inv (s : State) : Prop :=
  Params.wf s.par = true ∧ Memory.wf s.msg = true ∧ Memory.wf s.ord = true ∧
    Memory.within s.par.msgWords s.msg ∧ Memory.within s.par.msgWords s.ord ∧
    s.errorFieldsAgree ∧ s.runningAccepted ∧ s.phaseHolds

/-- An instance with parameters `p` right after reset, with a list of host inputs to come. -/
def State.powerUp (p : Params) (inputs : List Input) : State :=
  { State.reset with par := p, inbox := inputs }

/-- The states a run reaches from reset, for any parameters in their ranges and any host inputs, reset
events among them. -/
inductive Reachable : State → Prop
  | powerUp (p : Params) (inputs : List Input) (h : Params.wf p = true) :
      Reachable (State.powerUp p inputs)
  | step (s t : State) (hs : Reachable s) (h : Machine.step s = .next t) : Reachable t

/-- A safe run: no reachable step stops. -/
def State.stepsOn (s : State) : Prop := ∃ t, step s = .next t

/-- `s` with one input waiting: a transaction of the host that is not early. -/
def State.withAccess (s : State) (x : Txn) : State :=
  { s with inbox := [{ event := .access x, early := false }] }

/-- The next step serves the transaction `x` alone: the response is `r`, and nothing else than the
changes from `s` to `t` happens. -/
def State.servesTo (s : State) (x : Txn) (r : Response) (t : State) : Prop :=
  step (s.withAccess x) = .next { t with inbox := [], resp := some r }

/-- `n` steps, one after another. -/
def stepTimes : Nat → State → Host.Outcome State Fault Refusal
  | 0, s => .next s
  | n + 1, s => andThen (step s) (stepTimes n)

/-- The same command issued `n` times, one after another. -/
def execRepeat (i : Instr) : Nat → State → Host.Outcome State Fault Refusal
  | 0, s => .next s
  | n + 1, s => andThen (exec i s) (execRepeat i n)

/-- Commands issued one after another. -/
def execAll : List Instr → State → Host.Outcome State Fault Refusal
  | [], s => .next s
  | i :: rest, s => andThen (exec i s) (execAll rest)

end Sys2Proof.Machine
end

