-- ==== Sys2Proof/Certificates/Slice0/Obligations.lean ====
section
/-! DEFINITION. The statements for the provers, each about every state and every set of parameters
unless it says otherwise. `log <n>` is notes/assumptions/<n>.md. -/

open Sys2Proof Sys2Proof.Machine

/-! ## The commands -/

/-- R182. `NOP` is the word 0. While `ERR = 0`, it completes in every phase and sets `IP`, and nothing
else; while `ERR = 1` it is ignored. -/
def Obligations.NopSetsOnlyIp : Prop :=
  encode .nop = 0x0000000000000000 ∧ ∀ s : State,
    (s.err = false → exec .nop s = .next { s with ip := true }) ∧
    (s.err = true → exec .nop s = .next s)

/-- R183. `INIT`, the word 1, completes in every phase when the message fits: `S = IV`, `T = 0`, `RND =
0`, phase READY, `IP = 1`, nothing else; a message that does not fit raises `E_LEN` with the word 1. -/
def Obligations.InitBeginsComputation : Prop :=
  encode .init = 0x0000000000000001 ∧ ∀ s : State, s.err = false →
    (s.bcnt.toNat ≤ s.par.msgWords →
      exec .init s = .next { s with
        sreg := s.par.iv, t := 0, rnd := 0, phase := .ready, ip := true }) ∧
    (s.par.msgWords < s.bcnt.toNat →
      exec .init s = .next { s with err := true, errc := .len, errinfo := 1, ip := true })

/-- R110. `KSNEXT`, the word 2, completes in every phase: `KSOUT` gets the drawn word, `KS` the new seed,
`IP` 1, and nothing else changes; while `ERR = 1` it is ignored. -/
def Obligations.KsnextDrawsOneWord : Prop :=
  encode .ksnext = 0x0000000000000002 ∧ ∀ s : State,
    (s.err = false →
      exec .ksnext s = .next { s with
        ksout := (ksNext s.par.arxC s.var s.ks).1
        ks := (ksNext s.par.arxC s.var s.ks).2
        ip := true }) ∧
    (s.err = true → exec .ksnext s = .next s)

/-- R124. `SHUFFLE`, the word 3, in READY completes: `ORD[0..BCNT-1]` is the order, every other byte of
`ORD` is as it was, `KS` is the end seed, the phase is ABSORBED for the empty message and PERMUTED
otherwise, `IP = 1`, and nothing else changes. In any other phase it raises `E_SEQ` with the word 3. -/
def Obligations.ShuffleWritesTheOrder : Prop :=
  encode .shuffle = 0x0000000000000003 ∧ ∀ s : State, s.err = false →
    (s.phase = .ready → s.bcnt.toNat ≤ s.par.msgWords →
      ∃ t, exec .shuffle s = .next t ∧
        (∀ k, k < s.bcnt.toNat →
          t.ordWord k = BitVec.ofNat 64 ((shuffle s.par.arxC s.var s.len).1.getD k 0)) ∧
        (∀ a, 8 * s.bcnt.toNat ≤ a → Memory.byte? t.ord a = Memory.byte? s.ord a) ∧
        t = { s with
          ord := t.ord
          ks := (shuffle s.par.arxC s.var s.len).2
          phase := if s.bcnt = 0 then .absorbed else .permuted
          ip := true }) ∧
    (s.phase ≠ .ready →
      exec .shuffle s = .next { s with err := true, errc := .seq, errinfo := 3, ip := true })

/-- R141. `MIX`, the word 4, completes in every phase: `MXOUT` gets the mixer's result on `MXX`, `LV` and
`MXRP`, `IP` 1, and nothing else changes; while `ERR = 1` it is ignored. -/
def Obligations.MixWritesOnlyMxout : Prop :=
  encode .mix = 0x0000000000000004 ∧ ∀ s : State,
    (s.err = false →
      exec .mix s = .next { s with
        mxout := mix s.var s.mxx (latticeVec s.par.latticeConst) s.mxrp, ip := true }) ∧
    (s.err = true → exec .mix s = .next s)

/-- R156. `ABSORB1`, the word 5, in PERMUTED completes where both accesses lie inside the memories (R70):
the block `ORD[T]` is absorbed, `T` counts, the last block moves the phase to ABSORBED, `IP = 1`, and
nothing else changes. In any other phase it raises `E_SEQ` with the word 5. -/
def Obligations.AbsorbOneBlock : Prop :=
  encode .absorb1 = 0x0000000000000005 ∧ ∀ s : State, s.err = false →
    (s.phase = .permuted → s.t.toNat < s.par.msgWords →
      (s.ordWord s.t.toNat).toNat < s.par.msgWords →
      exec .absorb1 s = .next { s with
        sreg := absorbBlock (latticeVec s.par.latticeConst) s.var s.msg8 s.len s.sreg
          (s.ordWord s.t.toNat)
        t := s.t + 1
        phase := if s.t + 1 = s.bcnt then .absorbed else .permuted
        ip := true }) ∧
    (s.phase ≠ .permuted →
      exec .absorb1 s = .next { s with err := true, errc := .seq, errinfo := 5, ip := true })

/-- R157. `ABSORB`, the word 6, in PERMUTED completes where all its accesses lie inside the memories: it
has the effect of `BCNT - T` times `ABSORB1`, and ends with the blocks `ORD[T] .. ORD[BCNT-1]` absorbed in
that order, `T = BCNT`, phase ABSORBED, `IP = 1`, nothing else changed. In ABSORBED it sets only `IP`;
elsewhere it raises `E_SEQ` with the word 6. -/
def Obligations.AbsorbTakesAllRemainingBlocks : Prop :=
  encode .absorb = 0x0000000000000006 ∧ ∀ s : State, s.err = false →
    (s.phase = .permuted → s.t.toNat < s.bcnt.toNat → s.bcnt.toNat ≤ s.par.msgWords →
      (∀ k, s.t.toNat ≤ k → k < s.bcnt.toNat → (s.ordWord k).toNat < s.par.msgWords) →
      ∃ u, exec .absorb s = .next u ∧
        execRepeat .absorb1 (s.bcnt.toNat - s.t.toNat) s = .next u ∧
        u = { s with
          sreg := ((List.range' s.t.toNat (s.bcnt.toNat - s.t.toNat)).map s.ordWord).foldl
            (absorbBlock (latticeVec s.par.latticeConst) s.var s.msg8 s.len) s.sreg
          t := s.bcnt
          phase := .absorbed
          ip := true }) ∧
    (s.phase = .absorbed → exec .absorb s = .next { s with ip := true }) ∧
    (s.phase ≠ .permuted → s.phase ≠ .absorbed →
      exec .absorb s = .next { s with err := true, errc := .seq, errinfo := 6, ip := true })

/-- R169. `FROUND`, the word 7, in ABSORBED completes: round `RND` over `S`, `RND` counts, the last round
moves the phase to DONE, `IP = 1`, and nothing else changes. In any other phase it raises `E_SEQ` with the
word 7. -/
def Obligations.FroundRunsOneRound : Prop :=
  encode .fround = 0x0000000000000007 ∧ ∀ s : State, s.err = false →
    (s.phase = .absorbed →
      exec .fround s = .next { s with
        sreg := finalRound (latticeVec s.par.latticeConst) s.var s.sreg s.rnd.toNat
        rnd := s.rnd + 1
        phase := if s.rnd + 1 = BitVec.ofNat 32 s.rounds then .done else .absorbed
        ip := true }) ∧
    (s.phase ≠ .absorbed →
      exec .fround s = .next { s with err := true, errc := .seq, errinfo := 7, ip := true })

/-- R170. `FINAL`, the word 8, in ABSORBED completes: it has the effect of `R(VAR) - RND` times `FROUND`,
and ends with the rounds `RND .. R(VAR)-1` done in that order, `RND = R(VAR)`, phase DONE, `IP = 1`,
nothing else changed. In DONE it sets only `IP`; elsewhere it raises `E_SEQ` with the word 8. -/
def Obligations.FinalRunsAllRemainingRounds : Prop :=
  encode .final = 0x0000000000000008 ∧ ∀ s : State, s.err = false →
    (s.phase = .absorbed → s.rnd.toNat < s.rounds → s.rounds < 2 ^ 32 →
      ∃ u, exec .final s = .next u ∧
        execRepeat .fround (s.rounds - s.rnd.toNat) s = .next u ∧
        u = { s with
          sreg := (List.range' s.rnd.toNat (s.rounds - s.rnd.toNat)).foldl
            (finalRound (latticeVec s.par.latticeConst) s.var) s.sreg
          rnd := BitVec.ofNat 32 s.rounds
          phase := .done
          ip := true }) ∧
    (s.phase = .done → exec .final s = .next { s with ip := true }) ∧
    (s.phase ≠ .absorbed → s.phase ≠ .done →
      exec .final s = .next { s with err := true, errc := .seq, errinfo := 8, ip := true })

/-- R185. `HASH`, the word 9, completes in every phase when the message fits: it has the effect of `INIT`,
`SHUFFLE`, `ABSORB`, `FINAL` issued one after another, and ends in DONE with `S = digest(VAR, message)`,
`T = BCNT`, `RND = R(VAR)`, the order in `ORD[0..BCNT-1]`, the end seed in `KS`, `IP = 1`, and nothing
else changed. A message that does not fit raises `E_LEN` with the word 9. -/
def Obligations.HashComputesTheDigest : Prop :=
  encode .hash = 0x0000000000000009 ∧ ∀ s : State, s.err = false → Params.wf s.par = true →
    (s.bcnt.toNat ≤ s.par.msgWords →
      ∃ u, exec .hash s = .next u ∧
        execAll [.init, .shuffle, .absorb, .final] s = .next u ∧
        (∀ k, k < s.bcnt.toNat →
          u.ordWord k = BitVec.ofNat 64 ((shuffle s.par.arxC s.var s.len).1.getD k 0)) ∧
        (∀ a, 8 * s.bcnt.toNat ≤ a → Memory.byte? u.ord a = Memory.byte? s.ord a) ∧
        u = { s with
          sreg := digest s.par s.var s.message
          ord := u.ord
          ks := (shuffle s.par.arxC s.var s.len).2
          t := s.bcnt
          rnd := BitVec.ofNat 32 s.rounds
          phase := .done
          ip := true }) ∧
    (s.par.msgWords < s.bcnt.toNat →
      exec .hash s = .next { s with err := true, errc := .len, errinfo := 9, ip := true })

/-- R184. `CLR`, the word `0x0F`, completes in every state, also while `ERR = 1`: phase IDLE, `T`, `RND`,
`ERR`, `ERRC`, `ERRINFO` and `IP` all 0, and nothing else changes. -/
def Obligations.ClrReturnsFromError : Prop :=
  encode .clr = 0x000000000000000F ∧ ∀ s : State, exec .clr s = .next { s with
    phase := .idle, t := 0, rnd := 0, err := false, errc := .none, errinfo := 0, ip := false }

/-- R87, the column of the writes: what a command that answers a next state leaves as it was. Only the
commands of the table's column write each piece; `ORD` beyond `8 * BCNT` bytes, `MSG`, `LEN`, `VAR`, `IE`,
`MXX` and `MXRP` are written by none, and a command touches neither the port nor the parameters. Of the
commands carried out only `CLR` writes `ERR`, `ERRC` and `ERRINFO`; a command that is not carried out writes
at most these three and `IP` (R205, R206). -/
def Obligations.CommandsWriteOnlyTheirColumn : Prop :=
  ∀ (i : Instr) (s t : State), exec i s = .next t →
    t.len = s.len ∧ t.var = s.var ∧ t.ie = s.ie ∧ t.mxx = s.mxx ∧ t.mxrp = s.mxrp ∧
    t.par = s.par ∧ t.running = s.running ∧ t.inbox = s.inbox ∧ t.resp = s.resp ∧
    t.epoch = s.epoch ∧ t.draws = s.draws ∧
    (∀ a, Memory.byte? t.msg a = Memory.byte? s.msg a) ∧
    (∀ a, 8 * s.bcnt.toNat ≤ a → Memory.byte? t.ord a = Memory.byte? s.ord a) ∧
    (i ∉ [.init, .absorb1, .absorb, .fround, .final, .hash] → t.sreg = s.sreg) ∧
    (i ∉ [.init, .absorb1, .absorb, .hash, .clr] → t.t = s.t) ∧
    (i ∉ [.init, .fround, .final, .hash, .clr] → t.rnd = s.rnd) ∧
    (i ∉ [.shuffle, .hash] → ∀ a, Memory.byte? t.ord a = Memory.byte? s.ord a) ∧
    (i ∉ [.ksnext, .shuffle, .hash] → t.ks = s.ks) ∧
    (i ≠ .ksnext → t.ksout = s.ksout) ∧
    (i ≠ .mix → t.mxout = s.mxout) ∧
    (i ∈ [.nop, .ksnext, .mix] → t.phase = s.phase) ∧
    (s.accepts i = true → i ≠ .clr → t.err = s.err ∧ t.errc = s.errc ∧ t.errinfo = s.errinfo) ∧
    (s.accepts i = false →
      t = { s with err := t.err, errc := t.errc, errinfo := t.errinfo, ip := t.ip })

/-- R188, the moves commands make: a command that is neither refused nor ignored moves the phase as the table
lists, from every state, and one that is refused or ignored leaves it. -/
def Obligations.PhaseMovesAsListed : Prop :=
  ∀ (i : Instr) (s t : State), exec i s = .next t →
    (s.accepts i = false → t.phase = s.phase) ∧
    (s.accepts i = true →
      (i = .clr → t.phase = .idle) ∧
      (i = .init → t.phase = .ready) ∧
      (i = .shuffle → t.phase = if s.bcnt = 0 then .absorbed else .permuted) ∧
      (i = .absorb1 → t.phase = if s.t + 1 = s.bcnt then .absorbed else .permuted) ∧
      (i = .absorb → t.phase = .absorbed ∧ (s.phase = .permuted → t.t = s.bcnt)) ∧
      (i = .fround → t.phase = if s.rnd + 1 = BitVec.ofNat 32 s.rounds then .done else .absorbed) ∧
      (i = .final → t.phase = .done ∧ (s.phase = .absorbed → t.rnd = BitVec.ofNat 32 s.rounds)) ∧
      (i = .hash → t.phase = .done ∧ t.rnd = BitVec.ofNat 32 s.rounds) ∧
      (i ∈ [.nop, .ksnext, .mix] → t.phase = s.phase))

/-- R210. What a command leaves in `IP`, and with `IE` on `irq`: unchanged when ignored, 0 after `CLR`, and 1
after any other command, completed or refused with a recorded error. -/
def Obligations.CompletionSetsIp : Prop :=
  ∀ (i : Instr) (s t : State), exec i s = .next t →
    (t.ip = if s.err = true ∧ i ≠ .clr then s.ip else decide (i ≠ .clr)) ∧
    t.irq = (s.ie && t.ip)

/-! ## Recorded errors -/

/-- R203. A well-formed command out of sequence raises `E_SEQ` with its word and does nothing else: `SHUFFLE`
outside READY, `ABSORB1` outside PERMUTED, `ABSORB` outside PERMUTED and ABSORBED, `FROUND` outside
ABSORBED, `FINAL` outside ABSORBED and DONE; and no other command ever does. From there every command but
`CLR` is ignored, and `CLR` moves the phase to IDLE. -/
def Obligations.OutOfSequenceIsRecorded : Prop :=
  ∀ (i : Instr) (s t : State), s.err = false → exec i s = .next t →
    ((i = .shuffle ∧ s.phase ≠ .ready) ∨ (i = .absorb1 ∧ s.phase ≠ .permuted) ∨
      (i = .absorb ∧ s.phase ≠ .permuted ∧ s.phase ≠ .absorbed) ∨
      (i = .fround ∧ s.phase ≠ .absorbed) ∨
      (i = .final ∧ s.phase ≠ .absorbed ∧ s.phase ≠ .done) →
        t = { s with err := true, errc := .seq, errinfo := encode i, ip := true } ∧
        (∀ j : Instr, j ≠ .clr → exec j t = .next t) ∧
        ∃ u, exec .clr t = .next u ∧ u.phase = .idle) ∧
    (t.errc = .seq → s.errc ≠ .seq →
      (i = .shuffle ∧ s.phase ≠ .ready) ∨ (i = .absorb1 ∧ s.phase ≠ .permuted) ∨
      (i = .absorb ∧ s.phase ≠ .permuted ∧ s.phase ≠ .absorbed) ∨
      (i = .fround ∧ s.phase ≠ .absorbed) ∨
      (i = .final ∧ s.phase ≠ .absorbed ∧ s.phase ≠ .done))

/-- R202. A write to `CMD` of a word with non-zero bits 63:8, or with an opcode outside `0x00 .. 0x09` and
`0x0F`, while `ERR = 0` and `BUSY = 0`, responds `ok`, records `E_OPC` with the word, and does nothing
else. -/
def Obligations.IllegalWordIsRecorded : Prop :=
  ∀ (s : State) (cw : Word), s.running = none → s.err = false →
    (cw.toNat / 256 ≠ 0 ∨ cw.toNat % 256 ∉ [0, 1, 2, 3, 4, 5, 6, 7, 8, 9, 15]) →
    s.servesTo (.write 0x30 8 cw) .ok
      { s with err := true, errc := .opc, errinfo := cw, ip := true }

/-- R206. While `ERR = 1` a write to `CMD` of any word but `0x0F` responds `ok` and changes nothing else, and
`0x0F` has the effect of `CLR`; a write to `KS` or `STATUS` and a read of `ERRINFO` work as usual. -/
def Obligations.OnlyClrWhileErr : Prop :=
  ∀ s : State, s.running = none → s.err = true →
    (∀ cw : Word, cw ≠ 0x0F → s.servesTo (.write 0x30 8 cw) .ok s) ∧
    s.servesTo (.write 0x30 8 0x0F) .ok { s with
      phase := .idle, t := 0, rnd := 0, err := false, errc := .none, errinfo := 0, ip := false } ∧
    (∀ v : Word, s.servesTo (.write 0x40 8 v) .ok { s with ks := v }) ∧
    (∀ v : Word, s.servesTo (.write 0x20 8 v) .ok { s with ip := s.ip && !v.getLsbD 3 }) ∧
    s.servesTo (.read 0x28 8) (.data s.errinfo) s

/-! ## Encoding -/

/-- R86. The table of the eleven words, and each command has exactly one encoding: a word decodes to a command
if and only if it is that command's word. -/
def Obligations.DecodeAndEncodeAgree : Prop :=
  (∀ (cw : Word) (i : Instr), decode cw = .ok i ↔ cw = encode i) ∧
  encode .nop = 0x0000000000000000 ∧ encode .init = 0x0000000000000001 ∧
  encode .ksnext = 0x0000000000000002 ∧ encode .shuffle = 0x0000000000000003 ∧
  encode .mix = 0x0000000000000004 ∧ encode .absorb1 = 0x0000000000000005 ∧
  encode .absorb = 0x0000000000000006 ∧ encode .fround = 0x0000000000000007 ∧
  encode .final = 0x0000000000000008 ∧ encode .hash = 0x0000000000000009 ∧
  encode .clr = 0x000000000000000F

/-- R88. The decoder is total on all `2^64` words: it rejects exactly the words with non-zero bits 63:8 and
those with an opcode outside the map, each by its name. -/
def Obligations.IllegalWordsAreRejectedByName : Prop :=
  ∀ cw : Word,
    (decode cw = .error .reservedBits ↔ cw.toNat / 256 ≠ 0) ∧
    (decode cw = .error .unknownOpcode ↔
      cw.toNat / 256 = 0 ∧ ((10 ≤ cw.toNat % 256 ∧ cw.toNat % 256 ≤ 14) ∨ 16 ≤ cw.toNat % 256))

/-- Words written out from the encoding table of 30_encoding.md decode to their commands. -/
def Obligations.TableWordsDecode : Prop :=
  decodeTableWord 64 0x0000000000000003 = some .shuffle ∧
  decodeTableWord 64 0x0000000000000006 = some .absorb ∧
  decodeTableWord 64 0x000000000000000F = some .clr ∧
  decodeTableWord 64 0x000000000000000A = none ∧
  decodeTableWord 64 0x0000000000000109 = none

/-! ## Steps -/

/-- A step runs the decoded command: a write to `CMD` of a word that decodes to `i`, with `BUSY = 0`, and no
host input arriving before the end of the command, runs `i` on the state in which the port has answered
`ok`. (How host inputs reach the machine is the model's own, logs 5 and 6.) -/
def Obligations.StepRunsTheDecodedCommand : Prop :=
  ∀ (s : State) (cw : Word) (i : Instr) (early : Bool) (rest : List Input), s.running = none →
    s.inbox = { event := .access (.write 0x30 8 cw), early := early } :: rest →
    decode cw = .ok i → Instr.wf i = true →
    ({ s with inbox := rest } : State).nextIsEarly = false →
    step s = exec i { s with inbox := rest, resp := some .ok }

/-- R180 case 5, R40. Where a host input arrives before the end of a command that is accepted, the step
answers `ok` and leaves the command in execution with `BUSY = 1` and nothing else changed; a command in
execution is carried out by the step at which no early input waits, and `BUSY` is 0 from then on. (The
order of arrival is the model's own, log 6.) -/
def Obligations.CommandStaysInExecution : Prop :=
  (∀ (s : State) (i : Instr) (early : Bool) (e : Input) (rest : List Input), s.running = none →
    s.inbox = { event := .access (.write 0x30 8 (encode i)), early := early } :: e :: rest →
    e.early = true → s.accepts i = true →
    step s = .next { s with inbox := e :: rest, resp := some .ok, running := some i }) ∧
  (∀ (s : State) (i : Instr), s.running = some i → s.nextIsEarly = false →
    step s = exec i { s with running := none })

/-- R68. While `BUSY = 1` a read of `STATUS` responds with bit 0 equal to 1, whatever the other bits are, and
every other transaction gets `error`; neither has any effect on the state. -/
def Obligations.BusyRefusesAllButStatusReads : Prop :=
  ∀ (s : State) (i : Instr) (x : Txn) (rest : List Input), s.running = some i →
    s.inbox = { event := .access x, early := true } :: rest →
    (x = .read 0x20 8 →
      ∃ v : Word, v.getLsbD 0 = true ∧
        step s = .next { s with inbox := rest, resp := some (.data v), draws := s.draws + 1 }) ∧
    (x ≠ .read 0x20 8 → step s = .next { s with inbox := rest, resp := some .error })

/-- R68, R180: a command is atomic to the host. Whatever transactions arrive while it is in execution, when
`BUSY` is 0 again the state is the one the command leaves when nothing arrives, but for the last response
and the count of busy reads. (The count and the order of arrival are the model's own, logs 4, 5 and 6.) -/
def Obligations.BusyWindowIsInvisible : Prop :=
  ∀ (s : State) (i : Instr) (xs : List Txn) (u : State), s.running = some i →
    s.inbox = xs.map (fun x => { event := .access x, early := true }) →
    exec i { s with running := none, inbox := [] } = .next u →
    ∃ r d, stepTimes (xs.length + 1) s = .next { u with resp := r, draws := d }

/-- R218. With no command in execution and no host input, a step holds all state. -/
def Obligations.IdleHoldsAllState : Prop :=
  ∀ s : State, s.running = none → s.inbox = [] → step s = .next s

/-- R44, R230, R231. The reset event, at any time, also while `BUSY = 1`: every register takes its reset
value, the command in execution is abandoned, nothing counts as written to `MSG` and `ORD`, and the
parameters are not affected. -/
def Obligations.ResetEventClearsEveryRegister : Prop :=
  ∀ (s : State) (early : Bool) (rest : List Input),
    s.inbox = { event := .reset, early := early } :: rest → (s.running = none ∨ early = true) →
    ∃ t, step s = .next t ∧ (∀ j, j < 8 → readS t.sreg j = 0) ∧ t.len = 0 ∧ t.var = .A ∧
      t.ie = false ∧ t.err = false ∧ t.ip = false ∧ t.errc = .none ∧ t.errinfo = 0 ∧ t.ks = 0 ∧
      t.ksout = 0 ∧ t.mxx = 0 ∧ t.mxrp = 0 ∧ t.mxout = 0 ∧ t.t = 0 ∧ t.rnd = 0 ∧
      t.phase = .idle ∧ t.running = none ∧ t.busy = false ∧ t.irq = false ∧
      (∀ a, Memory.byte? t.msg a = none) ∧ (∀ a, Memory.byte? t.ord a = none) ∧
      t.par = s.par ∧ t.inbox = rest

/-- R44. The state after reset, and the state after a reset event in any state, hold the table's values: every
register 0, IDLE, variant A, no byte of `MSG` or `ORD` with a value (log 2); a reset event does not affect the
parameters (and with them `LV`, `ID`, `CAP`). -/
def Obligations.ResetStateMatchesTheTable : Prop :=
  (∀ r : State, (r = State.reset ∨ ∃ s : State, r = s.resetEvent) →
    (∀ j, j < 8 → readS r.sreg j = 0) ∧ r.len = 0 ∧ r.var = .A ∧ r.ie = false ∧ r.err = false ∧
    r.ip = false ∧ r.errc.code = 0 ∧ r.errinfo = 0 ∧ r.ks = 0 ∧ r.ksout = 0 ∧ r.mxx = 0 ∧ r.mxrp = 0 ∧
    r.mxout = 0 ∧ r.t = 0 ∧ r.rnd = 0 ∧ r.phase.code = 0 ∧ r.busy = false ∧
    (∀ a, Memory.byte? r.msg a = none) ∧ (∀ a, Memory.byte? r.ord a = none)) ∧
  ∀ s : State, s.resetEvent.par = s.par

/-! ## The host port -/

/-- R42. The register map: in an instance whose parameters are in range, every mapped location has an aligned
offset of its own, and an aligned offset either is the offset of the location it selects or selects none. -/
def Obligations.RegisterMapIsOneToOne : Prop :=
  ∀ n : Nat, n ≤ 2 ^ 27 →
    (∀ l : Location, l.mapped n = true →
      locate n (offsetOf l) = some l ∧ (offsetOf l).toNat % 8 = 0) ∧
    (∀ (o : Offset) (l : Location), o.toNat % 8 = 0 → locate n o = some l →
      l.mapped n = true ∧ offsetOf l = o)

/-- R64. A host read while `BUSY = 0` returns the value of the location at the moment of the read and changes
nothing: the sixteen registers, `S[j]`, `LV[i]`, `MSG[w]` and `ORD[t]`. -/
def Obligations.HostReadsReturnTheRegisters : Prop :=
  ∀ s : State, s.running = none → s.par.msgWords ≤ 2 ^ 27 →
    s.servesTo (.read 0x00 8) (.data 0x4348415259424431) s ∧
    s.servesTo (.read 0x08 8) (.data (BitVec.ofNat 64 s.par.msgWords)) s ∧
    s.servesTo (.read 0x10 8) (.data (if s.ie then 1 else 0)) s ∧
    s.servesTo (.read 0x18 8) (.data (if s.var = .B then 1 else 0)) s ∧
    s.servesTo (.read 0x20 8) (.data s.status) s ∧
    s.servesTo (.read 0x28 8) (.data s.errinfo) s ∧
    s.servesTo (.read 0x30 8) (.data 0) s ∧
    s.servesTo (.read 0x38 8) (.data s.len) s ∧
    s.servesTo (.read 0x40 8) (.data s.ks) s ∧
    s.servesTo (.read 0x48 8) (.data s.ksout) s ∧
    s.servesTo (.read 0x50 8) (.data s.mxx) s ∧
    s.servesTo (.read 0x58 8) (.data s.mxrp) s ∧
    s.servesTo (.read 0x60 8) (.data s.mxout) s ∧
    s.servesTo (.read 0x68 8) (.data s.t) s ∧
    s.servesTo (.read 0x70 8) (.data (BitVec.ofNat 64 s.rnd.toNat)) s ∧
    s.servesTo (.read 0x78 8) (.data (BitVec.ofNat 64 ((s.len.toNat + 7) / 8))) s ∧
    (∀ j, j < 8 → s.servesTo (.read (BitVec.ofNat 32 (0x80 + 8 * j)) 8) (.data (readS s.sreg j)) s) ∧
    (∀ i, i < 64 → s.servesTo (.read (BitVec.ofNat 32 (0x200 + 8 * i)) 8)
      (.data ((BitVec.ofNat 64 i * s.par.latticeConst) ^^^ BitVec.ofNat 64 (i * i + 1))) s) ∧
    (∀ w, w < s.par.msgWords →
      s.servesTo (.read (BitVec.ofNat 32 (0x40000000 + 8 * w)) 8) (.data (s.msgWord w)) s) ∧
    (∀ k, k < s.par.msgWords →
      s.servesTo (.read (BitVec.ofNat 32 (0x80000000 + 8 * k)) 8) (.data (s.ordWord k)) s)

/-- R25. The fields of `STATUS` stand where the table puts them, and its reserved bits are 0. -/
def Obligations.StatusFieldsInPlace : Prop :=
  ∀ s : State,
    s.status.getLsbD 0 = s.busy ∧ s.status.getLsbD 1 = decide (s.phase = .done) ∧
    s.status.getLsbD 2 = s.err ∧ s.status.getLsbD 3 = s.ip ∧
    s.status.extractLsb' 4 3 = s.phase.code ∧ s.status.getLsbD 7 = false ∧
    s.status.extractLsb' 8 8 = s.errc.code ∧ s.status.extractLsb' 16 48 = 0

/-- R65, the plain registers: a write to `CTRL`, `KS`, `MXX` or `MXRP` in any phase stores, of `CTRL` bit 0
only, and a write to `STATUS` clears `IP` where bit 3 is 1 and does nothing else. -/
def Obligations.PlainWritesStore : Prop :=
  ∀ (s : State) (v : Word), s.running = none →
    s.servesTo (.write 0x10 8 v) .ok { s with ie := v.getLsbD 0 } ∧
    s.servesTo (.write 0x40 8 v) .ok { s with ks := v } ∧
    s.servesTo (.write 0x50 8 v) .ok { s with mxx := v } ∧
    s.servesTo (.write 0x58 8 v) .ok { s with mxrp := v } ∧
    s.servesTo (.write 0x20 8 v) .ok { s with ip := if v.getLsbD 3 then false else s.ip }

/-- R66. The locked class: in READY, PERMUTED and ABSORBED a write to `LEN`, `CFG` or `MSG[w]` gets `error` and
changes nothing; in IDLE and DONE it stores, the phase is IDLE after it, the stored word reads back, every
other byte of `MSG` is as it was, and nothing else changes. -/
def Obligations.LockedClassWrites : Prop :=
  ∀ (s : State) (v : Word) (w : Nat), s.running = none → w < s.par.msgWords → s.par.msgWords ≤ 2 ^ 27 →
    (s.phase = .ready ∨ s.phase = .permuted ∨ s.phase = .absorbed →
      s.servesTo (.write 0x38 8 v) .error s ∧ s.servesTo (.write 0x18 8 v) .error s ∧
      s.servesTo (.write (BitVec.ofNat 32 (0x40000000 + 8 * w)) 8 v) .error s) ∧
    (s.phase = .idle ∨ s.phase = .done →
      s.servesTo (.write 0x38 8 v) .ok { s with len := v, phase := .idle } ∧
      s.servesTo (.write 0x18 8 v) .ok
        { s with var := if v.getLsbD 0 then .B else .A, phase := .idle } ∧
      ∃ t, s.servesTo (.write (BitVec.ofNat 32 (0x40000000 + 8 * w)) 8 v) .ok t ∧
        t = { s with msg := t.msg, phase := .idle } ∧ t.msgWord w = v ∧
        (∀ a, a / 8 ≠ w → Memory.byte? t.msg a = Memory.byte? s.msg a))

/-- R67. A transaction gets `error`, and changes nothing, in each of these cases: (a) a size other than 8 or an
offset not a multiple of 8; (b) an offset that is not mapped; (c) a write to a read-only location; (d) a
write to the locked class in a locked phase; (e) any transaction but a read of `STATUS` while `BUSY = 1`
(here, one that arrives early). -/
def Obligations.BusErrorsChangeNothing : Prop :=
  ∀ s : State,
    (s.running = none → ∀ (o : Offset) (n : Nat) (v : Word),
      (n ≠ 8 ∨ o.toNat % 8 ≠ 0 ∨
        (0xC0 ≤ o.toNat ∧ o.toNat < 0x200) ∨ (0x400 ≤ o.toNat ∧ o.toNat < 0x40000000) ∨
        (0x40000000 + 8 * s.par.msgWords ≤ o.toNat ∧ o.toNat < 0x80000000) ∨
        (0x80000000 + 8 * s.par.msgWords ≤ o.toNat ∧ o.toNat < 0xC0000000) ∨
        0xC0000000 ≤ o.toNat →
        s.servesTo (.read o n) .error s ∧ s.servesTo (.write o n v) .error s) ∧
      (o.toNat ∈ [0x00, 0x08, 0x28, 0x48, 0x60, 0x68, 0x70, 0x78] ∨
        (0x80 ≤ o.toNat ∧ o.toNat < 0xC0) ∨ (0x200 ≤ o.toNat ∧ o.toNat < 0x400) ∨
        (0x80000000 ≤ o.toNat ∧ o.toNat < 0xC0000000) →
        s.servesTo (.write o n v) .error s) ∧
      (s.phase = .ready ∨ s.phase = .permuted ∨ s.phase = .absorbed →
        o.toNat ∈ [0x18, 0x38] ∨ (0x40000000 ≤ o.toNat ∧ o.toNat < 0x80000000) →
        s.servesTo (.write o n v) .error s)) ∧
    (∀ (i : Instr) (x : Txn) (rest : List Input), s.running = some i →
      s.inbox = { event := .access x, early := true } :: rest → x ≠ .read 0x20 8 →
      step s = .next { s with inbox := rest, resp := some .error })

/-! ## The functions -/

/-- R33. `BCNT` is `ceil(LEN / 8)`, at most `2^61`. -/
def Obligations.BcntIsTheCeiling : Prop :=
  ∀ s : State, s.bcnt.toNat = (s.len.toNat + 7) / 8 ∧ s.bcnt.toNat ≤ 2 ^ 61

/-- R102 (a), (b). In variant A seed 0 is a fixed point that draws 0, and the seed update is invertible, so a
non-zero seed never leads to seed 0. -/
def Obligations.XorshiftSeedIsInvertible : Prop :=
  ksNextA 0 = (0, 0) ∧ (∀ x y : Word, (ksNextA x).2 = (ksNextA y).2 → x = y) ∧
    (∀ x : Word, x ≠ 0 → (ksNextA x).2 ≠ 0)

/-- R108. In variant B the seed advances by 1 and wraps, and the drawn word's low half is `out[0]`, its high
half `out[1]`. -/
def Obligations.ArxWordIsTheFirstEightBytes : Prop :=
  ∀ (c : Vector Half 4) (seed : Word),
    (ksNextB c seed).2.toNat = (seed.toNat + 1) % 2 ^ 64 ∧
    (ksNextB c seed).1.toNat =
      (arxBlock (arxInit c seed))[0].toNat + (arxBlock (arxInit c seed))[1].toNat * 2 ^ 32

/-- R106. The four quarter-rounds of one round touch disjoint words, so their order within the round does not
affect the result: the column round run in any order of its four quarter-rounds gives the words of the
listed order, and so does the diagonal round. -/
def Obligations.QuarterRoundsOfOneRoundCommute : Prop :=
  ∀ (w : Vector Half 16) (l : List (Fin 16 × Fin 16 × Fin 16 × Fin 16)),
    (l.Perm [(0, 4, 8, 12), (1, 5, 9, 13), (2, 6, 10, 14), (3, 7, 11, 15)] →
      l.foldl (fun w q => quarterRound w q.1 q.2.1 q.2.2.1 q.2.2.2) w =
        quarterRound (quarterRound (quarterRound (quarterRound w 0 4 8 12) 1 5 9 13) 2 6 10 14)
          3 7 11 15) ∧
    (l.Perm [(0, 5, 10, 15), (1, 6, 11, 12), (2, 7, 8, 13), (3, 4, 9, 14)] →
      l.foldl (fun w q => quarterRound w q.1 q.2.1 q.2.2.1 q.2.2.2) w =
        quarterRound (quarterRound (quarterRound (quarterRound w 0 5 10 15) 1 6 11 12) 2 7 8 13)
          3 4 9 14)

/-- R123. For `len = 0` the order is empty, for `1 <= len <= 8` it is `[0]`, and in both the end seed is the
seed: no word is drawn. -/
def Obligations.ShortMessagesDrawNothing : Prop :=
  ∀ (c : Vector Half 4) (var : Variant) (len : Word),
    (len = 0 → shuffle c var len = ([], len * 0xDEADBEEFCAFEBABE)) ∧
    (1 ≤ len.toNat ∧ len.toNat ≤ 8 → shuffle c var len = ([0], len * 0xDEADBEEFCAFEBABE))

/-- R125 (a), (b). The order is a permutation of `0..n-1`, so every entry is below `n`. -/
def Obligations.ShuffleIsABijection : Prop :=
  ∀ (c : Vector Half 4) (var : Variant) (len : Word),
    (shuffle c var len).1.Perm (List.range (ceilDiv8 len).toNat) ∧
    (∀ x ∈ (shuffle c var len).1, x < (ceilDiv8 len).toNat)

/-- R125 (d). In variant B the end seed is the seed plus the number of draws. -/
def Obligations.EndSeedOfVariantB : Prop :=
  ∀ (c : Vector Half 4) (len : Word),
    (shuffle c .B len).2 =
      len * 0xDEADBEEFCAFEBABE + BitVec.ofNat 64 ((ceilDiv8 len).toNat - 1)

/-- R134 (a). The 64 terms of `mix_A` are independent: any order of the iterations gives the same result. -/
def Obligations.MixATermsInAnyOrder : Prop :=
  ∀ (x : Word) (vec : Nat → Word) (rp : Word) (l : List Nat), l.Perm (List.range 64) →
    mixA x vec rp = mixFinish (l.foldl (fun acc i => acc ^^^ mixTermA x vec rp i) x)

/-- R138. In variant B bits 63:39 of `x` enter the result only through the initial `res <- x`: two inputs with
equal bits 38:0 give results that differ by the finished difference of the inputs. -/
def Obligations.MixBHighBitsEnterOnce : Prop :=
  ∀ (x y : Word) (vec : Nat → Word) (rp : Word), x.extractLsb' 0 39 = y.extractLsb' 0 39 →
    mixB x vec rp ^^^ mixB y vec rp = (x ^^^ y) ^^^ ((x ^^^ y) >>> 29)

/-- R138, with the vector of 64 zeros: `mix_B(x, vec, rp) = x ^ (x >> 29)` for every `rp`. -/
def Obligations.MixBOfTheZeroVector : Prop :=
  ∀ (x : Word) (vec : Nat → Word) (rp : Word), (∀ i, i < 64 → vec i = 0) →
    mixB x vec rp = x ^^^ (x >>> 29)

/-- R151. A block wholly below `len` loads as the word of `MSG`, and the last, partial block as that word with
the bytes at or beyond `len` masked. -/
def Obligations.BlockLoadMasksTheTail : Prop :=
  ∀ (s : State) (index : Word), index.toNat < 2 ^ 61 →
    (8 * index.toNat + 8 ≤ s.len.toNat → loadBlock s.msg8 s.len index = s.msgWord index.toNat) ∧
    (8 * index.toNat < s.len.toNat → s.len.toNat < 8 * index.toNat + 8 →
      (loadBlock s.msg8 s.len index).toNat =
        (s.msgWord index.toNat).toNat % 2 ^ (8 * (s.len.toNat - 8 * index.toNat)))

/-- R154. The word permutation takes the word at position 4 to 0, 2 to 4, 6 to 2, 0 to 6, 5 to 1, 3 to 5, 7 to 3
and 1 to 7, and four times it is the identity. -/
def Obligations.WordPermutationHasOrderFour : Prop :=
  ∀ S : Vector Word 8,
    (readS (permuteWords S) 0 = readS S 4 ∧ readS (permuteWords S) 4 = readS S 2 ∧
      readS (permuteWords S) 2 = readS S 6 ∧ readS (permuteWords S) 6 = readS S 0 ∧
      readS (permuteWords S) 1 = readS S 5 ∧ readS (permuteWords S) 5 = readS S 3 ∧
      readS (permuteWords S) 3 = readS S 7 ∧ readS (permuteWords S) 7 = readS S 1) ∧
    permuteWords (permuteWords (permuteWords (permuteWords S))) = S

/-- R153. The word loop is in place: words 0 to 2 mix with the old `S[5]`, `S[6]`, `S[7]`, and words 3 to 7 with
the words the same loop has already written. The round parameter `index + j + 1` is never 0 for the index of
a block. -/
def Obligations.AbsorptionLoopIsInPlace : Prop :=
  ∀ (lv : Nat → Word) (var : Variant) (block index : Word) (S S' : Vector Word 8),
    S' = (List.range 8).foldl (absorbWord lv var block index) S →
    ∀ j, j < 8 →
      readS S' j = mix var (readS S j ^^^ (block ^^^ if j < 3 then readS S (j + 5) else readS S' (j - 3)))
        lv (index + BitVec.ofNat 64 j + 1) ∧
      (index.toNat < 2 ^ 61 → index + BitVec.ofNat 64 j + 1 ≠ 0)

/-- R166. The word loop of a round is in place: the partner of words 0 to 5 is the old `S[j+2]`, that of words 6
and 7 is the `S[0]` or `S[1]` this round has already written. -/
def Obligations.FinalizationLoopIsInPlace : Prop :=
  ∀ (lv : Nat → Word) (var : Variant) (r : Word) (S S' : Vector Word 8),
    S' = (List.range 8).foldl (finalWord lv var r) S →
    ∀ j, j < 8 →
      readS S' j = mix var (readS S j ^^^ if j < 6 then readS S (j + 2) else readS S' (j - 6))
        lv (r + BitVec.ofNat 64 j)

/-- R186. The digest is a function of the message bytes and length only: what stands at or beyond `len` does not
reach it. -/
def Obligations.DigestDependsOnTheMessageOnly : Prop :=
  ∀ (p : Params) (var : Variant) (len : Word) (f g : Nat → Byte), (∀ a, a < len.toNat → f a = g a) →
    digestOf p var len f = digestOf p var len g

/-! ## A whole run -/

/-- The host's procedure for one digest (R90, R185, R187): with no command in execution, no recorded error
and the phase IDLE or DONE, the script `WR CFG, v; LOADMSG bytes; CMD HASH` (with its implicit `WAIT`) of
a message that fits ends in DONE with `S` the digest of exactly those bytes under the variant `v[0]`
selects, and the read of `STATUS` that ends it returns the status. (How host inputs reach the machine is
the model's own, logs 5, 6 and 12.) -/
def Obligations.HostLoadsAndHashes : Prop :=
  ∀ (s : State) (v : Word) (bytes : List Byte) (inputs : List Input),
    s.running = none → s.err = false → Params.wf s.par = true → s.phase = .idle ∨ s.phase = .done →
    bytes.length ≤ 8 * s.par.msgWords →
    inputs = scriptInputs [.wr .cfg v, .loadMsg bytes, .cmd .hash] →
    ∃ u, stepTimes inputs.length { s with inbox := inputs } = .next u ∧
      u.sreg = digest s.par (if v.getLsbD 0 then .B else .A) bytes ∧ u.message = bytes ∧
      u.phase = .done ∧ u.err = false ∧ u.running = none ∧ u.resp = some (.data u.status)

/-! ## Invariants -/

/-- Every step, from any state, keeps the two memory lists in their canonical form, addresses strictly rising.
(The form is the model's own choice, log 18: the spec gives the contents of `MSG` and `ORD`, R37 and R38, and
no form for them.) -/
def Obligations.StepsKeepMemoriesCanonical : Prop :=
  ∀ s t : State, Memory.wf s.msg = true → Memory.wf s.ord = true → step s = .next t →
    Memory.wf t.msg = true ∧ Memory.wf t.ord = true

/-- R25, R26. The error fields agree after every step: `ERRC` and `ERRINFO` are 0 when `ERR = 0`, and an error
has a code. -/
def Obligations.StepsKeepErrorFieldsAgreeing : Prop :=
  ∀ s t : State, s.errorFieldsAgree → step s = .next t → t.errorFieldsAgree

/-- R11, R12. No step changes a parameter. -/
def Obligations.StepsKeepTheParameters : Prop :=
  ∀ s t : State, step s = .next t → t.par = s.par

/-- The invariant of a run holds right after reset, for every set of parameters in range and whatever the host
does next. -/
def Obligations.InvariantHoldsAfterReset : Prop :=
  State.Inv State.reset ∧
    ∀ (p : Params) (inputs : List Input), Params.wf p = true → State.Inv (State.powerUp p inputs)

/-- R31, R32, R43, R190: every step, from every state that meets the invariant, gives a state that meets it. -/
def Obligations.StepsKeepTheInvariant : Prop :=
  ∀ s t : State, State.Inv s → step s = .next t → State.Inv t

/-- R70, R236: from every state that meets the invariant the machine steps on, so no access falls outside a
memory; and no command hangs: a command in execution ends in the step that no early input comes before, and
within one step more than the inputs still to come no command is in execution. (Inputs and their order of
arrival are the model's own, logs 5 and 6.) -/
def Obligations.InvariantStatesStepOn : Prop :=
  ∀ s : State, State.Inv s →
    s.stepsOn ∧
    (∀ i, s.running = some i → s.nextIsEarly = false → ∃ t, step s = .next t ∧ t.running = none) ∧
    ∃ n t, n ≤ s.inbox.length + 1 ∧ stepTimes n s = .next t ∧ t.running = none

/-- R190, R43 item 4. In every reachable state in phase DONE, `S` is the digest of the message now held, under
the variant now held. (A byte never written since reset is a free value, log 2: the statement holds
whatever it is.) -/
def Obligations.DoneHoldsTheDigest : Prop :=
  ∀ s : State, Reachable s → s.phase = .done → s.sreg = digest s.par s.var s.message

/-- R43 item 3. In every reachable state in phase PERMUTED, ABSORBED or DONE, `ORD[0..BCNT-1]` is a permutation
of `0..BCNT-1`. -/
def Obligations.OrderIsATruePermutation : Prop :=
  ∀ s : State, Reachable s → s.phase = .permuted ∨ s.phase = .absorbed ∨ s.phase = .done →
    ((List.range s.bcnt.toNat).map fun k => (s.ordWord k).toNat).Perm (List.range s.bcnt.toNat)
end

