-- ==== Sys2Proof/Laws/State.lean ====
section
/-! SUPPORT. Every field of State after every named update, and the derived operands an update leaves
alone: one lemma each, true by unfolding the update. -/

namespace Sys2Proof.Machine

open Sys2Proof

/-! `raiseError` -/

@[simp] theorem State.raiseError_sreg (s : State) (e : ErrCode) (cw : Word) :
    (s.raiseError e cw).sreg = s.sreg := rfl
@[simp] theorem State.raiseError_len (s : State) (e : ErrCode) (cw : Word) :
    (s.raiseError e cw).len = s.len := rfl
@[simp] theorem State.raiseError_var (s : State) (e : ErrCode) (cw : Word) :
    (s.raiseError e cw).var = s.var := rfl
@[simp] theorem State.raiseError_ie (s : State) (e : ErrCode) (cw : Word) :
    (s.raiseError e cw).ie = s.ie := rfl
@[simp] theorem State.raiseError_err (s : State) (e : ErrCode) (cw : Word) :
    (s.raiseError e cw).err = true := rfl
@[simp] theorem State.raiseError_ip (s : State) (e : ErrCode) (cw : Word) :
    (s.raiseError e cw).ip = true := rfl
@[simp] theorem State.raiseError_errc (s : State) (e : ErrCode) (cw : Word) :
    (s.raiseError e cw).errc = e := rfl
@[simp] theorem State.raiseError_errinfo (s : State) (e : ErrCode) (cw : Word) :
    (s.raiseError e cw).errinfo = cw := rfl
@[simp] theorem State.raiseError_ks (s : State) (e : ErrCode) (cw : Word) :
    (s.raiseError e cw).ks = s.ks := rfl
@[simp] theorem State.raiseError_ksout (s : State) (e : ErrCode) (cw : Word) :
    (s.raiseError e cw).ksout = s.ksout := rfl
@[simp] theorem State.raiseError_mxx (s : State) (e : ErrCode) (cw : Word) :
    (s.raiseError e cw).mxx = s.mxx := rfl
@[simp] theorem State.raiseError_mxrp (s : State) (e : ErrCode) (cw : Word) :
    (s.raiseError e cw).mxrp = s.mxrp := rfl
@[simp] theorem State.raiseError_mxout (s : State) (e : ErrCode) (cw : Word) :
    (s.raiseError e cw).mxout = s.mxout := rfl
@[simp] theorem State.raiseError_t (s : State) (e : ErrCode) (cw : Word) :
    (s.raiseError e cw).t = s.t := rfl
@[simp] theorem State.raiseError_rnd (s : State) (e : ErrCode) (cw : Word) :
    (s.raiseError e cw).rnd = s.rnd := rfl
@[simp] theorem State.raiseError_phase (s : State) (e : ErrCode) (cw : Word) :
    (s.raiseError e cw).phase = s.phase := rfl
@[simp] theorem State.raiseError_msg (s : State) (e : ErrCode) (cw : Word) :
    (s.raiseError e cw).msg = s.msg := rfl
@[simp] theorem State.raiseError_ord (s : State) (e : ErrCode) (cw : Word) :
    (s.raiseError e cw).ord = s.ord := rfl
@[simp] theorem State.raiseError_running (s : State) (e : ErrCode) (cw : Word) :
    (s.raiseError e cw).running = s.running := rfl
@[simp] theorem State.raiseError_par (s : State) (e : ErrCode) (cw : Word) :
    (s.raiseError e cw).par = s.par := rfl
@[simp] theorem State.raiseError_inbox (s : State) (e : ErrCode) (cw : Word) :
    (s.raiseError e cw).inbox = s.inbox := rfl
@[simp] theorem State.raiseError_resp (s : State) (e : ErrCode) (cw : Word) :
    (s.raiseError e cw).resp = s.resp := rfl
@[simp] theorem State.raiseError_epoch (s : State) (e : ErrCode) (cw : Word) :
    (s.raiseError e cw).epoch = s.epoch := rfl
@[simp] theorem State.raiseError_draws (s : State) (e : ErrCode) (cw : Word) :
    (s.raiseError e cw).draws = s.draws := rfl
@[simp] theorem State.raiseError_bcnt (s : State) (e : ErrCode) (cw : Word) : (s.raiseError e cw).bcnt = s.bcnt := rfl
@[simp] theorem State.raiseError_rounds (s : State) (e : ErrCode) (cw : Word) : (s.raiseError e cw).rounds = s.rounds := rfl
@[simp] theorem State.raiseError_fits (s : State) (e : ErrCode) (cw : Word) : (s.raiseError e cw).fits = s.fits := rfl
@[simp] theorem State.raiseError_shuffled (s : State) (e : ErrCode) (cw : Word) : (s.raiseError e cw).shuffled = s.shuffled := rfl
@[simp] theorem State.raiseError_msg8 (s : State) (e : ErrCode) (cw : Word) : (s.raiseError e cw).msg8 = s.msg8 := rfl
@[simp] theorem State.raiseError_ord8 (s : State) (e : ErrCode) (cw : Word) : (s.raiseError e cw).ord8 = s.ord8 := rfl
@[simp] theorem State.raiseError_ordWord (s : State) (e : ErrCode) (cw : Word) : (s.raiseError e cw).ordWord = s.ordWord := rfl
@[simp] theorem State.raiseError_busy (s : State) (e : ErrCode) (cw : Word) : (s.raiseError e cw).busy = s.busy := rfl

/-! `clearError` -/

@[simp] theorem State.clearError_sreg (s : State) : s.clearError.sreg = s.sreg := rfl
@[simp] theorem State.clearError_len (s : State) : s.clearError.len = s.len := rfl
@[simp] theorem State.clearError_var (s : State) : s.clearError.var = s.var := rfl
@[simp] theorem State.clearError_ie (s : State) : s.clearError.ie = s.ie := rfl
@[simp] theorem State.clearError_err (s : State) : s.clearError.err = false := rfl
@[simp] theorem State.clearError_ip (s : State) : s.clearError.ip = false := rfl
@[simp] theorem State.clearError_errc (s : State) : s.clearError.errc = .none := rfl
@[simp] theorem State.clearError_errinfo (s : State) : s.clearError.errinfo = 0 := rfl
@[simp] theorem State.clearError_ks (s : State) : s.clearError.ks = s.ks := rfl
@[simp] theorem State.clearError_ksout (s : State) : s.clearError.ksout = s.ksout := rfl
@[simp] theorem State.clearError_mxx (s : State) : s.clearError.mxx = s.mxx := rfl
@[simp] theorem State.clearError_mxrp (s : State) : s.clearError.mxrp = s.mxrp := rfl
@[simp] theorem State.clearError_mxout (s : State) : s.clearError.mxout = s.mxout := rfl
@[simp] theorem State.clearError_t (s : State) : s.clearError.t = 0 := rfl
@[simp] theorem State.clearError_rnd (s : State) : s.clearError.rnd = 0 := rfl
@[simp] theorem State.clearError_phase (s : State) : s.clearError.phase = .idle := rfl
@[simp] theorem State.clearError_msg (s : State) : s.clearError.msg = s.msg := rfl
@[simp] theorem State.clearError_ord (s : State) : s.clearError.ord = s.ord := rfl
@[simp] theorem State.clearError_running (s : State) : s.clearError.running = s.running := rfl
@[simp] theorem State.clearError_par (s : State) : s.clearError.par = s.par := rfl
@[simp] theorem State.clearError_inbox (s : State) : s.clearError.inbox = s.inbox := rfl
@[simp] theorem State.clearError_resp (s : State) : s.clearError.resp = s.resp := rfl
@[simp] theorem State.clearError_epoch (s : State) : s.clearError.epoch = s.epoch := rfl
@[simp] theorem State.clearError_draws (s : State) : s.clearError.draws = s.draws := rfl
@[simp] theorem State.clearError_bcnt (s : State) : s.clearError.bcnt = s.bcnt := rfl
@[simp] theorem State.clearError_rounds (s : State) : s.clearError.rounds = s.rounds := rfl
@[simp] theorem State.clearError_fits (s : State) : s.clearError.fits = s.fits := rfl
@[simp] theorem State.clearError_shuffled (s : State) : s.clearError.shuffled = s.shuffled := rfl
@[simp] theorem State.clearError_msg8 (s : State) : s.clearError.msg8 = s.msg8 := rfl
@[simp] theorem State.clearError_ord8 (s : State) : s.clearError.ord8 = s.ord8 := rfl
@[simp] theorem State.clearError_ordWord (s : State) : s.clearError.ordWord = s.ordWord := rfl
@[simp] theorem State.clearError_busy (s : State) : s.clearError.busy = s.busy := rfl

/-! `complete` -/

@[simp] theorem State.complete_sreg (s : State) : s.complete.sreg = s.sreg := rfl
@[simp] theorem State.complete_len (s : State) : s.complete.len = s.len := rfl
@[simp] theorem State.complete_var (s : State) : s.complete.var = s.var := rfl
@[simp] theorem State.complete_ie (s : State) : s.complete.ie = s.ie := rfl
@[simp] theorem State.complete_err (s : State) : s.complete.err = s.err := rfl
@[simp] theorem State.complete_ip (s : State) : s.complete.ip = true := rfl
@[simp] theorem State.complete_errc (s : State) : s.complete.errc = s.errc := rfl
@[simp] theorem State.complete_errinfo (s : State) : s.complete.errinfo = s.errinfo := rfl
@[simp] theorem State.complete_ks (s : State) : s.complete.ks = s.ks := rfl
@[simp] theorem State.complete_ksout (s : State) : s.complete.ksout = s.ksout := rfl
@[simp] theorem State.complete_mxx (s : State) : s.complete.mxx = s.mxx := rfl
@[simp] theorem State.complete_mxrp (s : State) : s.complete.mxrp = s.mxrp := rfl
@[simp] theorem State.complete_mxout (s : State) : s.complete.mxout = s.mxout := rfl
@[simp] theorem State.complete_t (s : State) : s.complete.t = s.t := rfl
@[simp] theorem State.complete_rnd (s : State) : s.complete.rnd = s.rnd := rfl
@[simp] theorem State.complete_phase (s : State) : s.complete.phase = s.phase := rfl
@[simp] theorem State.complete_msg (s : State) : s.complete.msg = s.msg := rfl
@[simp] theorem State.complete_ord (s : State) : s.complete.ord = s.ord := rfl
@[simp] theorem State.complete_running (s : State) : s.complete.running = s.running := rfl
@[simp] theorem State.complete_par (s : State) : s.complete.par = s.par := rfl
@[simp] theorem State.complete_inbox (s : State) : s.complete.inbox = s.inbox := rfl
@[simp] theorem State.complete_resp (s : State) : s.complete.resp = s.resp := rfl
@[simp] theorem State.complete_epoch (s : State) : s.complete.epoch = s.epoch := rfl
@[simp] theorem State.complete_draws (s : State) : s.complete.draws = s.draws := rfl
@[simp] theorem State.complete_bcnt (s : State) : s.complete.bcnt = s.bcnt := rfl
@[simp] theorem State.complete_rounds (s : State) : s.complete.rounds = s.rounds := rfl
@[simp] theorem State.complete_fits (s : State) : s.complete.fits = s.fits := rfl
@[simp] theorem State.complete_shuffled (s : State) : s.complete.shuffled = s.shuffled := rfl
@[simp] theorem State.complete_msg8 (s : State) : s.complete.msg8 = s.msg8 := rfl
@[simp] theorem State.complete_ord8 (s : State) : s.complete.ord8 = s.ord8 := rfl
@[simp] theorem State.complete_ordWord (s : State) : s.complete.ordWord = s.ordWord := rfl
@[simp] theorem State.complete_busy (s : State) : s.complete.busy = s.busy := rfl

/-! `begin` -/

@[simp] theorem State.begin_sreg (s : State) : s.begin.sreg = s.par.iv := rfl
@[simp] theorem State.begin_len (s : State) : s.begin.len = s.len := rfl
@[simp] theorem State.begin_var (s : State) : s.begin.var = s.var := rfl
@[simp] theorem State.begin_ie (s : State) : s.begin.ie = s.ie := rfl
@[simp] theorem State.begin_err (s : State) : s.begin.err = s.err := rfl
@[simp] theorem State.begin_ip (s : State) : s.begin.ip = s.ip := rfl
@[simp] theorem State.begin_errc (s : State) : s.begin.errc = s.errc := rfl
@[simp] theorem State.begin_errinfo (s : State) : s.begin.errinfo = s.errinfo := rfl
@[simp] theorem State.begin_ks (s : State) : s.begin.ks = s.ks := rfl
@[simp] theorem State.begin_ksout (s : State) : s.begin.ksout = s.ksout := rfl
@[simp] theorem State.begin_mxx (s : State) : s.begin.mxx = s.mxx := rfl
@[simp] theorem State.begin_mxrp (s : State) : s.begin.mxrp = s.mxrp := rfl
@[simp] theorem State.begin_mxout (s : State) : s.begin.mxout = s.mxout := rfl
@[simp] theorem State.begin_t (s : State) : s.begin.t = 0 := rfl
@[simp] theorem State.begin_rnd (s : State) : s.begin.rnd = 0 := rfl
@[simp] theorem State.begin_phase (s : State) : s.begin.phase = .ready := rfl
@[simp] theorem State.begin_msg (s : State) : s.begin.msg = s.msg := rfl
@[simp] theorem State.begin_ord (s : State) : s.begin.ord = s.ord := rfl
@[simp] theorem State.begin_running (s : State) : s.begin.running = s.running := rfl
@[simp] theorem State.begin_par (s : State) : s.begin.par = s.par := rfl
@[simp] theorem State.begin_inbox (s : State) : s.begin.inbox = s.inbox := rfl
@[simp] theorem State.begin_resp (s : State) : s.begin.resp = s.resp := rfl
@[simp] theorem State.begin_epoch (s : State) : s.begin.epoch = s.epoch := rfl
@[simp] theorem State.begin_draws (s : State) : s.begin.draws = s.draws := rfl
@[simp] theorem State.begin_bcnt (s : State) : s.begin.bcnt = s.bcnt := rfl
@[simp] theorem State.begin_rounds (s : State) : s.begin.rounds = s.rounds := rfl
@[simp] theorem State.begin_fits (s : State) : s.begin.fits = s.fits := rfl
@[simp] theorem State.begin_shuffled (s : State) : s.begin.shuffled = s.shuffled := rfl
@[simp] theorem State.begin_msg8 (s : State) : s.begin.msg8 = s.msg8 := rfl
@[simp] theorem State.begin_ord8 (s : State) : s.begin.ord8 = s.ord8 := rfl
@[simp] theorem State.begin_ordWord (s : State) : s.begin.ordWord = s.ordWord := rfl
@[simp] theorem State.begin_busy (s : State) : s.begin.busy = s.busy := rfl

/-! `drawKs` -/

@[simp] theorem State.drawKs_sreg (s : State) : s.drawKs.sreg = s.sreg := rfl
@[simp] theorem State.drawKs_len (s : State) : s.drawKs.len = s.len := rfl
@[simp] theorem State.drawKs_var (s : State) : s.drawKs.var = s.var := rfl
@[simp] theorem State.drawKs_ie (s : State) : s.drawKs.ie = s.ie := rfl
@[simp] theorem State.drawKs_err (s : State) : s.drawKs.err = s.err := rfl
@[simp] theorem State.drawKs_ip (s : State) : s.drawKs.ip = s.ip := rfl
@[simp] theorem State.drawKs_errc (s : State) : s.drawKs.errc = s.errc := rfl
@[simp] theorem State.drawKs_errinfo (s : State) : s.drawKs.errinfo = s.errinfo := rfl
@[simp] theorem State.drawKs_ks (s : State) : s.drawKs.ks = (ksNext s.par.arxC s.var s.ks).2 := rfl
@[simp] theorem State.drawKs_ksout (s : State) :
    s.drawKs.ksout = (ksNext s.par.arxC s.var s.ks).1 := rfl
@[simp] theorem State.drawKs_mxx (s : State) : s.drawKs.mxx = s.mxx := rfl
@[simp] theorem State.drawKs_mxrp (s : State) : s.drawKs.mxrp = s.mxrp := rfl
@[simp] theorem State.drawKs_mxout (s : State) : s.drawKs.mxout = s.mxout := rfl
@[simp] theorem State.drawKs_t (s : State) : s.drawKs.t = s.t := rfl
@[simp] theorem State.drawKs_rnd (s : State) : s.drawKs.rnd = s.rnd := rfl
@[simp] theorem State.drawKs_phase (s : State) : s.drawKs.phase = s.phase := rfl
@[simp] theorem State.drawKs_msg (s : State) : s.drawKs.msg = s.msg := rfl
@[simp] theorem State.drawKs_ord (s : State) : s.drawKs.ord = s.ord := rfl
@[simp] theorem State.drawKs_running (s : State) : s.drawKs.running = s.running := rfl
@[simp] theorem State.drawKs_par (s : State) : s.drawKs.par = s.par := rfl
@[simp] theorem State.drawKs_inbox (s : State) : s.drawKs.inbox = s.inbox := rfl
@[simp] theorem State.drawKs_resp (s : State) : s.drawKs.resp = s.resp := rfl
@[simp] theorem State.drawKs_epoch (s : State) : s.drawKs.epoch = s.epoch := rfl
@[simp] theorem State.drawKs_draws (s : State) : s.drawKs.draws = s.draws := rfl
@[simp] theorem State.drawKs_bcnt (s : State) : s.drawKs.bcnt = s.bcnt := rfl
@[simp] theorem State.drawKs_rounds (s : State) : s.drawKs.rounds = s.rounds := rfl
@[simp] theorem State.drawKs_fits (s : State) : s.drawKs.fits = s.fits := rfl
@[simp] theorem State.drawKs_shuffled (s : State) : s.drawKs.shuffled = s.shuffled := rfl
@[simp] theorem State.drawKs_msg8 (s : State) : s.drawKs.msg8 = s.msg8 := rfl
@[simp] theorem State.drawKs_ord8 (s : State) : s.drawKs.ord8 = s.ord8 := rfl
@[simp] theorem State.drawKs_ordWord (s : State) : s.drawKs.ordWord = s.ordWord := rfl
@[simp] theorem State.drawKs_busy (s : State) : s.drawKs.busy = s.busy := rfl

/-! `permute` -/

@[simp] theorem State.permute_sreg (s : State) : s.permute.sreg = s.sreg := rfl
@[simp] theorem State.permute_len (s : State) : s.permute.len = s.len := rfl
@[simp] theorem State.permute_var (s : State) : s.permute.var = s.var := rfl
@[simp] theorem State.permute_ie (s : State) : s.permute.ie = s.ie := rfl
@[simp] theorem State.permute_err (s : State) : s.permute.err = s.err := rfl
@[simp] theorem State.permute_ip (s : State) : s.permute.ip = s.ip := rfl
@[simp] theorem State.permute_errc (s : State) : s.permute.errc = s.errc := rfl
@[simp] theorem State.permute_errinfo (s : State) : s.permute.errinfo = s.errinfo := rfl
@[simp] theorem State.permute_ks (s : State) : s.permute.ks = s.shuffled.2 := rfl
@[simp] theorem State.permute_ksout (s : State) : s.permute.ksout = s.ksout := rfl
@[simp] theorem State.permute_mxx (s : State) : s.permute.mxx = s.mxx := rfl
@[simp] theorem State.permute_mxrp (s : State) : s.permute.mxrp = s.mxrp := rfl
@[simp] theorem State.permute_mxout (s : State) : s.permute.mxout = s.mxout := rfl
@[simp] theorem State.permute_t (s : State) : s.permute.t = s.t := rfl
@[simp] theorem State.permute_rnd (s : State) : s.permute.rnd = s.rnd := rfl
@[simp] theorem State.permute_phase (s : State) :
    s.permute.phase = if s.bcnt = 0 then .absorbed else .permuted := rfl
@[simp] theorem State.permute_msg (s : State) : s.permute.msg = s.msg := rfl
@[simp] theorem State.permute_ord (s : State) :
    s.permute.ord = Memory.putIndices s.ord 0 s.shuffled.1 := rfl
@[simp] theorem State.permute_running (s : State) : s.permute.running = s.running := rfl
@[simp] theorem State.permute_par (s : State) : s.permute.par = s.par := rfl
@[simp] theorem State.permute_inbox (s : State) : s.permute.inbox = s.inbox := rfl
@[simp] theorem State.permute_resp (s : State) : s.permute.resp = s.resp := rfl
@[simp] theorem State.permute_epoch (s : State) : s.permute.epoch = s.epoch := rfl
@[simp] theorem State.permute_draws (s : State) : s.permute.draws = s.draws := rfl
@[simp] theorem State.permute_bcnt (s : State) : s.permute.bcnt = s.bcnt := rfl
@[simp] theorem State.permute_rounds (s : State) : s.permute.rounds = s.rounds := rfl
@[simp] theorem State.permute_fits (s : State) : s.permute.fits = s.fits := rfl
@[simp] theorem State.permute_shuffled (s : State) : s.permute.shuffled = s.shuffled := rfl
@[simp] theorem State.permute_msg8 (s : State) : s.permute.msg8 = s.msg8 := rfl
@[simp] theorem State.permute_busy (s : State) : s.permute.busy = s.busy := rfl

/-! `mixOperands` -/

@[simp] theorem State.mixOperands_sreg (s : State) : s.mixOperands.sreg = s.sreg := rfl
@[simp] theorem State.mixOperands_len (s : State) : s.mixOperands.len = s.len := rfl
@[simp] theorem State.mixOperands_var (s : State) : s.mixOperands.var = s.var := rfl
@[simp] theorem State.mixOperands_ie (s : State) : s.mixOperands.ie = s.ie := rfl
@[simp] theorem State.mixOperands_err (s : State) : s.mixOperands.err = s.err := rfl
@[simp] theorem State.mixOperands_ip (s : State) : s.mixOperands.ip = s.ip := rfl
@[simp] theorem State.mixOperands_errc (s : State) : s.mixOperands.errc = s.errc := rfl
@[simp] theorem State.mixOperands_errinfo (s : State) : s.mixOperands.errinfo = s.errinfo := rfl
@[simp] theorem State.mixOperands_ks (s : State) : s.mixOperands.ks = s.ks := rfl
@[simp] theorem State.mixOperands_ksout (s : State) : s.mixOperands.ksout = s.ksout := rfl
@[simp] theorem State.mixOperands_mxx (s : State) : s.mixOperands.mxx = s.mxx := rfl
@[simp] theorem State.mixOperands_mxrp (s : State) : s.mixOperands.mxrp = s.mxrp := rfl
@[simp] theorem State.mixOperands_mxout (s : State) :
    s.mixOperands.mxout = mix s.var s.mxx (Params.lv s.par) s.mxrp := rfl
@[simp] theorem State.mixOperands_t (s : State) : s.mixOperands.t = s.t := rfl
@[simp] theorem State.mixOperands_rnd (s : State) : s.mixOperands.rnd = s.rnd := rfl
@[simp] theorem State.mixOperands_phase (s : State) : s.mixOperands.phase = s.phase := rfl
@[simp] theorem State.mixOperands_msg (s : State) : s.mixOperands.msg = s.msg := rfl
@[simp] theorem State.mixOperands_ord (s : State) : s.mixOperands.ord = s.ord := rfl
@[simp] theorem State.mixOperands_running (s : State) : s.mixOperands.running = s.running := rfl
@[simp] theorem State.mixOperands_par (s : State) : s.mixOperands.par = s.par := rfl
@[simp] theorem State.mixOperands_inbox (s : State) : s.mixOperands.inbox = s.inbox := rfl
@[simp] theorem State.mixOperands_resp (s : State) : s.mixOperands.resp = s.resp := rfl
@[simp] theorem State.mixOperands_epoch (s : State) : s.mixOperands.epoch = s.epoch := rfl
@[simp] theorem State.mixOperands_draws (s : State) : s.mixOperands.draws = s.draws := rfl
@[simp] theorem State.mixOperands_bcnt (s : State) : s.mixOperands.bcnt = s.bcnt := rfl
@[simp] theorem State.mixOperands_rounds (s : State) : s.mixOperands.rounds = s.rounds := rfl
@[simp] theorem State.mixOperands_fits (s : State) : s.mixOperands.fits = s.fits := rfl
@[simp] theorem State.mixOperands_shuffled (s : State) : s.mixOperands.shuffled = s.shuffled := rfl
@[simp] theorem State.mixOperands_msg8 (s : State) : s.mixOperands.msg8 = s.msg8 := rfl
@[simp] theorem State.mixOperands_ord8 (s : State) : s.mixOperands.ord8 = s.ord8 := rfl
@[simp] theorem State.mixOperands_ordWord (s : State) : s.mixOperands.ordWord = s.ordWord := rfl
@[simp] theorem State.mixOperands_busy (s : State) : s.mixOperands.busy = s.busy := rfl

/-! `absorbAt` -/

@[simp] theorem State.absorbAt_sreg (s : State) (index : Word) :
    (s.absorbAt index).sreg = absorbBlock (Params.lv s.par) s.var s.msg8 s.len s.sreg index := rfl
@[simp] theorem State.absorbAt_len (s : State) (index : Word) :
    (s.absorbAt index).len = s.len := rfl
@[simp] theorem State.absorbAt_var (s : State) (index : Word) :
    (s.absorbAt index).var = s.var := rfl
@[simp] theorem State.absorbAt_ie (s : State) (index : Word) : (s.absorbAt index).ie = s.ie := rfl
@[simp] theorem State.absorbAt_err (s : State) (index : Word) :
    (s.absorbAt index).err = s.err := rfl
@[simp] theorem State.absorbAt_ip (s : State) (index : Word) : (s.absorbAt index).ip = s.ip := rfl
@[simp] theorem State.absorbAt_errc (s : State) (index : Word) :
    (s.absorbAt index).errc = s.errc := rfl
@[simp] theorem State.absorbAt_errinfo (s : State) (index : Word) :
    (s.absorbAt index).errinfo = s.errinfo := rfl
@[simp] theorem State.absorbAt_ks (s : State) (index : Word) : (s.absorbAt index).ks = s.ks := rfl
@[simp] theorem State.absorbAt_ksout (s : State) (index : Word) :
    (s.absorbAt index).ksout = s.ksout := rfl
@[simp] theorem State.absorbAt_mxx (s : State) (index : Word) :
    (s.absorbAt index).mxx = s.mxx := rfl
@[simp] theorem State.absorbAt_mxrp (s : State) (index : Word) :
    (s.absorbAt index).mxrp = s.mxrp := rfl
@[simp] theorem State.absorbAt_mxout (s : State) (index : Word) :
    (s.absorbAt index).mxout = s.mxout := rfl
@[simp] theorem State.absorbAt_t (s : State) (index : Word) : (s.absorbAt index).t = s.t + 1 := rfl
@[simp] theorem State.absorbAt_rnd (s : State) (index : Word) :
    (s.absorbAt index).rnd = s.rnd := rfl
@[simp] theorem State.absorbAt_phase (s : State) (index : Word) :
    (s.absorbAt index).phase = if s.t + 1 = s.bcnt then .absorbed else s.phase := rfl
@[simp] theorem State.absorbAt_msg (s : State) (index : Word) :
    (s.absorbAt index).msg = s.msg := rfl
@[simp] theorem State.absorbAt_ord (s : State) (index : Word) :
    (s.absorbAt index).ord = s.ord := rfl
@[simp] theorem State.absorbAt_running (s : State) (index : Word) :
    (s.absorbAt index).running = s.running := rfl
@[simp] theorem State.absorbAt_par (s : State) (index : Word) :
    (s.absorbAt index).par = s.par := rfl
@[simp] theorem State.absorbAt_inbox (s : State) (index : Word) :
    (s.absorbAt index).inbox = s.inbox := rfl
@[simp] theorem State.absorbAt_resp (s : State) (index : Word) :
    (s.absorbAt index).resp = s.resp := rfl
@[simp] theorem State.absorbAt_epoch (s : State) (index : Word) :
    (s.absorbAt index).epoch = s.epoch := rfl
@[simp] theorem State.absorbAt_draws (s : State) (index : Word) :
    (s.absorbAt index).draws = s.draws := rfl
@[simp] theorem State.absorbAt_bcnt (s : State) (index : Word) : (s.absorbAt index).bcnt = s.bcnt := rfl
@[simp] theorem State.absorbAt_rounds (s : State) (index : Word) : (s.absorbAt index).rounds = s.rounds := rfl
@[simp] theorem State.absorbAt_fits (s : State) (index : Word) : (s.absorbAt index).fits = s.fits := rfl
@[simp] theorem State.absorbAt_shuffled (s : State) (index : Word) : (s.absorbAt index).shuffled = s.shuffled := rfl
@[simp] theorem State.absorbAt_msg8 (s : State) (index : Word) : (s.absorbAt index).msg8 = s.msg8 := rfl
@[simp] theorem State.absorbAt_ord8 (s : State) (index : Word) : (s.absorbAt index).ord8 = s.ord8 := rfl
@[simp] theorem State.absorbAt_ordWord (s : State) (index : Word) : (s.absorbAt index).ordWord = s.ordWord := rfl
@[simp] theorem State.absorbAt_busy (s : State) (index : Word) : (s.absorbAt index).busy = s.busy := rfl

/-! `finalStep` -/

@[simp] theorem State.finalStep_sreg (s : State) :
    s.finalStep.sreg = finalRound (Params.lv s.par) s.var s.sreg s.rnd.toNat := rfl
@[simp] theorem State.finalStep_len (s : State) : s.finalStep.len = s.len := rfl
@[simp] theorem State.finalStep_var (s : State) : s.finalStep.var = s.var := rfl
@[simp] theorem State.finalStep_ie (s : State) : s.finalStep.ie = s.ie := rfl
@[simp] theorem State.finalStep_err (s : State) : s.finalStep.err = s.err := rfl
@[simp] theorem State.finalStep_ip (s : State) : s.finalStep.ip = s.ip := rfl
@[simp] theorem State.finalStep_errc (s : State) : s.finalStep.errc = s.errc := rfl
@[simp] theorem State.finalStep_errinfo (s : State) : s.finalStep.errinfo = s.errinfo := rfl
@[simp] theorem State.finalStep_ks (s : State) : s.finalStep.ks = s.ks := rfl
@[simp] theorem State.finalStep_ksout (s : State) : s.finalStep.ksout = s.ksout := rfl
@[simp] theorem State.finalStep_mxx (s : State) : s.finalStep.mxx = s.mxx := rfl
@[simp] theorem State.finalStep_mxrp (s : State) : s.finalStep.mxrp = s.mxrp := rfl
@[simp] theorem State.finalStep_mxout (s : State) : s.finalStep.mxout = s.mxout := rfl
@[simp] theorem State.finalStep_t (s : State) : s.finalStep.t = s.t := rfl
@[simp] theorem State.finalStep_rnd (s : State) : s.finalStep.rnd = s.rnd + 1 := rfl
@[simp] theorem State.finalStep_phase (s : State) :
    s.finalStep.phase = if s.rnd + 1 = BitVec.ofNat 32 s.rounds then .done else s.phase := rfl
@[simp] theorem State.finalStep_msg (s : State) : s.finalStep.msg = s.msg := rfl
@[simp] theorem State.finalStep_ord (s : State) : s.finalStep.ord = s.ord := rfl
@[simp] theorem State.finalStep_running (s : State) : s.finalStep.running = s.running := rfl
@[simp] theorem State.finalStep_par (s : State) : s.finalStep.par = s.par := rfl
@[simp] theorem State.finalStep_inbox (s : State) : s.finalStep.inbox = s.inbox := rfl
@[simp] theorem State.finalStep_resp (s : State) : s.finalStep.resp = s.resp := rfl
@[simp] theorem State.finalStep_epoch (s : State) : s.finalStep.epoch = s.epoch := rfl
@[simp] theorem State.finalStep_draws (s : State) : s.finalStep.draws = s.draws := rfl
@[simp] theorem State.finalStep_bcnt (s : State) : s.finalStep.bcnt = s.bcnt := rfl
@[simp] theorem State.finalStep_rounds (s : State) : s.finalStep.rounds = s.rounds := rfl
@[simp] theorem State.finalStep_fits (s : State) : s.finalStep.fits = s.fits := rfl
@[simp] theorem State.finalStep_shuffled (s : State) : s.finalStep.shuffled = s.shuffled := rfl
@[simp] theorem State.finalStep_msg8 (s : State) : s.finalStep.msg8 = s.msg8 := rfl
@[simp] theorem State.finalStep_ord8 (s : State) : s.finalStep.ord8 = s.ord8 := rfl
@[simp] theorem State.finalStep_ordWord (s : State) : s.finalStep.ordWord = s.ordWord := rfl
@[simp] theorem State.finalStep_busy (s : State) : s.finalStep.busy = s.busy := rfl

/-! `unlock` -/

@[simp] theorem State.unlock_sreg (s : State) : s.unlock.sreg = s.sreg := rfl
@[simp] theorem State.unlock_len (s : State) : s.unlock.len = s.len := rfl
@[simp] theorem State.unlock_var (s : State) : s.unlock.var = s.var := rfl
@[simp] theorem State.unlock_ie (s : State) : s.unlock.ie = s.ie := rfl
@[simp] theorem State.unlock_err (s : State) : s.unlock.err = s.err := rfl
@[simp] theorem State.unlock_ip (s : State) : s.unlock.ip = s.ip := rfl
@[simp] theorem State.unlock_errc (s : State) : s.unlock.errc = s.errc := rfl
@[simp] theorem State.unlock_errinfo (s : State) : s.unlock.errinfo = s.errinfo := rfl
@[simp] theorem State.unlock_ks (s : State) : s.unlock.ks = s.ks := rfl
@[simp] theorem State.unlock_ksout (s : State) : s.unlock.ksout = s.ksout := rfl
@[simp] theorem State.unlock_mxx (s : State) : s.unlock.mxx = s.mxx := rfl
@[simp] theorem State.unlock_mxrp (s : State) : s.unlock.mxrp = s.mxrp := rfl
@[simp] theorem State.unlock_mxout (s : State) : s.unlock.mxout = s.mxout := rfl
@[simp] theorem State.unlock_t (s : State) : s.unlock.t = s.t := rfl
@[simp] theorem State.unlock_rnd (s : State) : s.unlock.rnd = s.rnd := rfl
@[simp] theorem State.unlock_phase (s : State) : s.unlock.phase = .idle := rfl
@[simp] theorem State.unlock_msg (s : State) : s.unlock.msg = s.msg := rfl
@[simp] theorem State.unlock_ord (s : State) : s.unlock.ord = s.ord := rfl
@[simp] theorem State.unlock_running (s : State) : s.unlock.running = s.running := rfl
@[simp] theorem State.unlock_par (s : State) : s.unlock.par = s.par := rfl
@[simp] theorem State.unlock_inbox (s : State) : s.unlock.inbox = s.inbox := rfl
@[simp] theorem State.unlock_resp (s : State) : s.unlock.resp = s.resp := rfl
@[simp] theorem State.unlock_epoch (s : State) : s.unlock.epoch = s.epoch := rfl
@[simp] theorem State.unlock_draws (s : State) : s.unlock.draws = s.draws := rfl
@[simp] theorem State.unlock_bcnt (s : State) : s.unlock.bcnt = s.bcnt := rfl
@[simp] theorem State.unlock_rounds (s : State) : s.unlock.rounds = s.rounds := rfl
@[simp] theorem State.unlock_fits (s : State) : s.unlock.fits = s.fits := rfl
@[simp] theorem State.unlock_shuffled (s : State) : s.unlock.shuffled = s.shuffled := rfl
@[simp] theorem State.unlock_msg8 (s : State) : s.unlock.msg8 = s.msg8 := rfl
@[simp] theorem State.unlock_ord8 (s : State) : s.unlock.ord8 = s.ord8 := rfl
@[simp] theorem State.unlock_ordWord (s : State) : s.unlock.ordWord = s.ordWord := rfl
@[simp] theorem State.unlock_busy (s : State) : s.unlock.busy = s.busy := rfl

/-! `respond` -/

@[simp] theorem State.respond_sreg (s : State) (r : Response) : (s.respond r).sreg = s.sreg := rfl
@[simp] theorem State.respond_len (s : State) (r : Response) : (s.respond r).len = s.len := rfl
@[simp] theorem State.respond_var (s : State) (r : Response) : (s.respond r).var = s.var := rfl
@[simp] theorem State.respond_ie (s : State) (r : Response) : (s.respond r).ie = s.ie := rfl
@[simp] theorem State.respond_err (s : State) (r : Response) : (s.respond r).err = s.err := rfl
@[simp] theorem State.respond_ip (s : State) (r : Response) : (s.respond r).ip = s.ip := rfl
@[simp] theorem State.respond_errc (s : State) (r : Response) : (s.respond r).errc = s.errc := rfl
@[simp] theorem State.respond_errinfo (s : State) (r : Response) :
    (s.respond r).errinfo = s.errinfo := rfl
@[simp] theorem State.respond_ks (s : State) (r : Response) : (s.respond r).ks = s.ks := rfl
@[simp] theorem State.respond_ksout (s : State) (r : Response) :
    (s.respond r).ksout = s.ksout := rfl
@[simp] theorem State.respond_mxx (s : State) (r : Response) : (s.respond r).mxx = s.mxx := rfl
@[simp] theorem State.respond_mxrp (s : State) (r : Response) : (s.respond r).mxrp = s.mxrp := rfl
@[simp] theorem State.respond_mxout (s : State) (r : Response) :
    (s.respond r).mxout = s.mxout := rfl
@[simp] theorem State.respond_t (s : State) (r : Response) : (s.respond r).t = s.t := rfl
@[simp] theorem State.respond_rnd (s : State) (r : Response) : (s.respond r).rnd = s.rnd := rfl
@[simp] theorem State.respond_phase (s : State) (r : Response) :
    (s.respond r).phase = s.phase := rfl
@[simp] theorem State.respond_msg (s : State) (r : Response) : (s.respond r).msg = s.msg := rfl
@[simp] theorem State.respond_ord (s : State) (r : Response) : (s.respond r).ord = s.ord := rfl
@[simp] theorem State.respond_running (s : State) (r : Response) :
    (s.respond r).running = s.running := rfl
@[simp] theorem State.respond_par (s : State) (r : Response) : (s.respond r).par = s.par := rfl
@[simp] theorem State.respond_inbox (s : State) (r : Response) :
    (s.respond r).inbox = s.inbox := rfl
@[simp] theorem State.respond_resp (s : State) (r : Response) : (s.respond r).resp = some r := rfl
@[simp] theorem State.respond_epoch (s : State) (r : Response) :
    (s.respond r).epoch = s.epoch := rfl
@[simp] theorem State.respond_draws (s : State) (r : Response) :
    (s.respond r).draws = s.draws := rfl
@[simp] theorem State.respond_bcnt (s : State) (r : Response) : (s.respond r).bcnt = s.bcnt := rfl
@[simp] theorem State.respond_rounds (s : State) (r : Response) : (s.respond r).rounds = s.rounds := rfl
@[simp] theorem State.respond_fits (s : State) (r : Response) : (s.respond r).fits = s.fits := rfl
@[simp] theorem State.respond_shuffled (s : State) (r : Response) : (s.respond r).shuffled = s.shuffled := rfl
@[simp] theorem State.respond_msg8 (s : State) (r : Response) : (s.respond r).msg8 = s.msg8 := rfl
@[simp] theorem State.respond_ord8 (s : State) (r : Response) : (s.respond r).ord8 = s.ord8 := rfl
@[simp] theorem State.respond_ordWord (s : State) (r : Response) : (s.respond r).ordWord = s.ordWord := rfl
@[simp] theorem State.respond_busy (s : State) (r : Response) : (s.respond r).busy = s.busy := rfl

/-! `withCommand` -/

@[simp] theorem State.withCommand_sreg (s : State) (cw : Word) :
    (s.withCommand cw).sreg = s.sreg := rfl
@[simp] theorem State.withCommand_len (s : State) (cw : Word) :
    (s.withCommand cw).len = s.len := rfl
@[simp] theorem State.withCommand_var (s : State) (cw : Word) :
    (s.withCommand cw).var = s.var := rfl
@[simp] theorem State.withCommand_ie (s : State) (cw : Word) : (s.withCommand cw).ie = s.ie := rfl
@[simp] theorem State.withCommand_err (s : State) (cw : Word) :
    (s.withCommand cw).err = s.err := rfl
@[simp] theorem State.withCommand_ip (s : State) (cw : Word) : (s.withCommand cw).ip = s.ip := rfl
@[simp] theorem State.withCommand_errc (s : State) (cw : Word) :
    (s.withCommand cw).errc = s.errc := rfl
@[simp] theorem State.withCommand_errinfo (s : State) (cw : Word) :
    (s.withCommand cw).errinfo = s.errinfo := rfl
@[simp] theorem State.withCommand_ks (s : State) (cw : Word) : (s.withCommand cw).ks = s.ks := rfl
@[simp] theorem State.withCommand_ksout (s : State) (cw : Word) :
    (s.withCommand cw).ksout = s.ksout := rfl
@[simp] theorem State.withCommand_mxx (s : State) (cw : Word) :
    (s.withCommand cw).mxx = s.mxx := rfl
@[simp] theorem State.withCommand_mxrp (s : State) (cw : Word) :
    (s.withCommand cw).mxrp = s.mxrp := rfl
@[simp] theorem State.withCommand_mxout (s : State) (cw : Word) :
    (s.withCommand cw).mxout = s.mxout := rfl
@[simp] theorem State.withCommand_t (s : State) (cw : Word) : (s.withCommand cw).t = s.t := rfl
@[simp] theorem State.withCommand_rnd (s : State) (cw : Word) :
    (s.withCommand cw).rnd = s.rnd := rfl
@[simp] theorem State.withCommand_phase (s : State) (cw : Word) :
    (s.withCommand cw).phase = s.phase := rfl
@[simp] theorem State.withCommand_msg (s : State) (cw : Word) :
    (s.withCommand cw).msg = s.msg := rfl
@[simp] theorem State.withCommand_ord (s : State) (cw : Word) :
    (s.withCommand cw).ord = s.ord := rfl
@[simp] theorem State.withCommand_running (s : State) (cw : Word) :
    (s.withCommand cw).running = none := rfl
@[simp] theorem State.withCommand_par (s : State) (cw : Word) :
    (s.withCommand cw).par = s.par := rfl
@[simp] theorem State.withCommand_inbox (s : State) (cw : Word) :
    (s.withCommand cw).inbox = [commandWrite cw] := rfl
@[simp] theorem State.withCommand_resp (s : State) (cw : Word) :
    (s.withCommand cw).resp = s.resp := rfl
@[simp] theorem State.withCommand_epoch (s : State) (cw : Word) :
    (s.withCommand cw).epoch = s.epoch := rfl
@[simp] theorem State.withCommand_draws (s : State) (cw : Word) :
    (s.withCommand cw).draws = s.draws := rfl
@[simp] theorem State.withCommand_bcnt (s : State) (cw : Word) : (s.withCommand cw).bcnt = s.bcnt := rfl
@[simp] theorem State.withCommand_rounds (s : State) (cw : Word) : (s.withCommand cw).rounds = s.rounds := rfl
@[simp] theorem State.withCommand_fits (s : State) (cw : Word) : (s.withCommand cw).fits = s.fits := rfl
@[simp] theorem State.withCommand_shuffled (s : State) (cw : Word) : (s.withCommand cw).shuffled = s.shuffled := rfl
@[simp] theorem State.withCommand_msg8 (s : State) (cw : Word) : (s.withCommand cw).msg8 = s.msg8 := rfl
@[simp] theorem State.withCommand_ord8 (s : State) (cw : Word) : (s.withCommand cw).ord8 = s.ord8 := rfl
@[simp] theorem State.withCommand_ordWord (s : State) (cw : Word) : (s.withCommand cw).ordWord = s.ordWord := rfl

/-! `resetEvent` -/

@[simp] theorem State.resetEvent_sreg (s : State) :
    s.resetEvent.sreg = #v[0, 0, 0, 0, 0, 0, 0, 0] := rfl
@[simp] theorem State.resetEvent_len (s : State) : s.resetEvent.len = 0 := rfl
@[simp] theorem State.resetEvent_var (s : State) : s.resetEvent.var = .A := rfl
@[simp] theorem State.resetEvent_ie (s : State) : s.resetEvent.ie = false := rfl
@[simp] theorem State.resetEvent_err (s : State) : s.resetEvent.err = false := rfl
@[simp] theorem State.resetEvent_ip (s : State) : s.resetEvent.ip = false := rfl
@[simp] theorem State.resetEvent_errc (s : State) : s.resetEvent.errc = .none := rfl
@[simp] theorem State.resetEvent_errinfo (s : State) : s.resetEvent.errinfo = 0 := rfl
@[simp] theorem State.resetEvent_ks (s : State) : s.resetEvent.ks = 0 := rfl
@[simp] theorem State.resetEvent_ksout (s : State) : s.resetEvent.ksout = 0 := rfl
@[simp] theorem State.resetEvent_mxx (s : State) : s.resetEvent.mxx = 0 := rfl
@[simp] theorem State.resetEvent_mxrp (s : State) : s.resetEvent.mxrp = 0 := rfl
@[simp] theorem State.resetEvent_mxout (s : State) : s.resetEvent.mxout = 0 := rfl
@[simp] theorem State.resetEvent_t (s : State) : s.resetEvent.t = 0 := rfl
@[simp] theorem State.resetEvent_rnd (s : State) : s.resetEvent.rnd = 0 := rfl
@[simp] theorem State.resetEvent_phase (s : State) : s.resetEvent.phase = .idle := rfl
@[simp] theorem State.resetEvent_msg (s : State) : s.resetEvent.msg = [] := rfl
@[simp] theorem State.resetEvent_ord (s : State) : s.resetEvent.ord = [] := rfl
@[simp] theorem State.resetEvent_running (s : State) : s.resetEvent.running = none := rfl
@[simp] theorem State.resetEvent_par (s : State) : s.resetEvent.par = s.par := rfl
@[simp] theorem State.resetEvent_inbox (s : State) : s.resetEvent.inbox = s.inbox := rfl
@[simp] theorem State.resetEvent_resp (s : State) : s.resetEvent.resp = none := rfl
@[simp] theorem State.resetEvent_epoch (s : State) : s.resetEvent.epoch = s.epoch + 1 := rfl
@[simp] theorem State.resetEvent_draws (s : State) : s.resetEvent.draws = s.draws := rfl

end Sys2Proof.Machine
end

