-- ==== Sys2Proof/Laws/Exec.lean ====
section
/-! SUPPORT. Once for each shared operation of the commands: everything it can do. -/

namespace Sys2Proof.Machine

open Sys2Proof

/-! Acceptance. -/

/-- The four outcomes of the acceptance of a command (R180). -/
theorem gate_cases (i : Instr) (s : State) (body : State → Host.Outcome State Fault Refusal) :
    (s.err = true ∧ i ≠ .clr ∧ s.accepts i = false ∧ gate i s body = .next s) ∨
    (s.ignores i = false ∧ legalIn i s.phase = false ∧ s.accepts i = false ∧
      gate i s body = .next (s.raiseError .seq (encode i))) ∨
    (s.ignores i = false ∧ legalIn i s.phase = true ∧ checksLength i = true ∧ s.fits = false ∧
      s.accepts i = false ∧ gate i s body = .next (s.raiseError .len (encode i))) ∨
    (s.accepts i = true ∧ gate i s body = body s) := by
  unfold gate State.accepts
  cases h1 : s.ignores i
  · cases h2 : legalIn i s.phase
    · simp
    · cases h3 : checksLength i <;> cases h4 : s.fits <;> simp
  · simp only [State.ignores, Bool.and_eq_true, decide_eq_true_eq] at h1
    simp [h1]

/-- An accepted command is carried out. -/
theorem gate_of_accepts (i : Instr) (s : State) (body : State → Host.Outcome State Fault Refusal)
    (h : s.accepts i = true) : gate i s body = body s := by
  rcases gate_cases i s body with h' | h' | h' | h'
  · simp [h] at h'
  · simp [h] at h'
  · simp [h] at h'
  · exact h'.2

/-- When a command is accepted: no error recorded, or it is `CLR`; a legal phase; a message that fits. -/
theorem accepts_iff (i : Instr) (s : State) :
    s.accepts i = true ↔ (s.err = false ∨ i = .clr) ∧ legalIn i s.phase = true ∧
      (checksLength i = true → s.bcnt.toNat ≤ s.par.msgWords) := by
  simp only [State.accepts, State.ignores, State.fits, Bool.and_eq_true, Bool.not_eq_true',
    Bool.and_eq_false_iff, decide_eq_false_iff_not, not_not, Bool.or_eq_true, decide_eq_true_eq,
    and_assoc]
  cases checksLength i <;> simp

/-- A body that runs after another part of a command. -/
theorem andThen_eq_next (o : Host.Outcome State Fault Refusal)
    (f : State → Host.Outcome State Fault Refusal) (t : State) :
    andThen o f = .next t ↔ ∃ s, o = .next s ∧ f s = .next t := by
  cases o <;> simp [andThen]

@[simp] theorem andThen_next (s : State) (f : State → Host.Outcome State Fault Refusal) :
    andThen (.next s) f = f s := rfl

/-! The bodies. -/

/-- What the body of `SHUFFLE` does when it answers a next state. -/
theorem shuffleBody_next (s t : State) (h : shuffleBody s = .next t) : s.fits = true ∧ t = s.permute := by
  unfold shuffleBody at h
  split at h
  · exact ⟨‹_›, by injection h with h; exact h.symm⟩
  · cases h

/-- What one iteration of the absorption does when it answers a next state. -/
theorem absorbStep_next (s t : State) (h : absorbStep s = .next t) :
    s.t.toNat < s.par.msgWords ∧ (s.ordWord s.t.toNat).toNat < s.par.msgWords ∧
      t = s.absorbAt (s.ordWord s.t.toNat) := by
  unfold absorbStep at h
  split at h
  · split at h
    · exact ⟨‹_›, ‹_›, by injection h with h; exact h.symm⟩
    · cases h
  · cases h

/-- The absorption loop answers only `S`, `T` and `PHASE` anew. -/
theorem absorbLoop_next (n : Nat) (s t : State) (h : absorbLoop n s = .next t) :
    t = { s with sreg := t.sreg, t := t.t, phase := t.phase } := by
  induction n generalizing s with
  | zero => cases h; rfl
  | succ n ih =>
    rw [absorbLoop] at h
    split at h
    · obtain ⟨u, hu, ht⟩ := (andThen_eq_next _ _ _).1 h
      rw [ih u ht, (absorbStep_next s u hu).2.2]
      rfl
    · cases h; rfl

/-- The finalization loop writes only `S`, `RND` and `PHASE`. -/
theorem finalLoop_eq (n : Nat) (s : State) :
    finalLoop n s = { s with
      sreg := (finalLoop n s).sreg, rnd := (finalLoop n s).rnd, phase := (finalLoop n s).phase } := by
  induction n generalizing s with
  | zero => rfl
  | succ n ih =>
    rw [finalLoop]
    split
    · rw [ih s.finalStep]; rfl
    · rfl

/-! The port. -/

/-- What the port does with a command word (R180): ignored, `E_OPC`, left in execution, or run. -/
theorem issue_cases (s : State) (cw : Word) :
    (s.err = true ∧ cw ≠ encode .clr ∧ issue s cw = .next s) ∨
    ((∃ e, decode cw = .error e) ∧ issue s cw = .next (s.raiseError .opc cw)) ∨
    (∃ i, decode cw = .ok i ∧ s.accepts i = true ∧ s.nextIsEarly = true ∧
      issue s cw = .next { s with running := some i }) ∨
    (∃ i, decode cw = .ok i ∧ (s.accepts i = false ∨ s.nextIsEarly = false) ∧
      issue s cw = exec i s) := by
  unfold issue
  cases hd : decode cw with
  | error e =>
    by_cases hc : cw = encode .clr <;> cases he : s.err <;> simp [hc]
  | ok i =>
    by_cases hc : cw = encode .clr <;> cases he : s.err <;> cases ha : s.accepts i <;>
      cases hn : s.nextIsEarly <;> simp [hc, ha]

/-- One step: the command in execution ends, the machine is idle, or the next host input is served. -/
theorem step_cases (s : State) :
    (s.running = none ∧ s.inbox = [] ∧ step s = .next s) ∨
    (∃ i, s.running = some i ∧ s.nextIsEarly = false ∧ step s = exec i { s with running := none }) ∨
    (∃ e rest, s.inbox = e :: rest ∧ (s.running = none ∨ e.early = true) ∧
      step s = serve { s with inbox := rest } e.event) := by
  unfold step advance
  cases hi : s.inbox with
  | nil =>
    cases hr : s.running with
    | none => simp [completeRunning, hr]
    | some i => simp [completeRunning, hr, State.nextIsEarly, hi]
  | cons e rest =>
    cases hr : s.running with
    | none => simp [State.busy, hr]
    | some i => cases he : e.early <;> simp [State.busy, completeRunning, hr, State.nextIsEarly, hi, he]

end Sys2Proof.Machine
end

