-- ==== Sys2Proof/Laws/Memory.lean ====
section
/-! SUPPORT. Bytes and words, reads after writes, and the canonical form of memories: every memory
operation keeps it. -/

namespace Sys2Proof.Machine

open Sys2Proof

/-! Bytes and words. -/

theorem getLsbD_byteOf (v : Word) (k i : Nat) :
    (byteOf v k).getLsbD i = (decide (i < 8) && v.getLsbD (8 * k + i)) := by
  simp [byteOf, BitVec.getLsbD_extractLsb']

theorem getLsbD_packBytes (f : Nat → Byte) (i : Nat) (h : i < 64) :
    (packBytes f).getLsbD i = (f (i / 8)).getLsbD (i % 8) := by
  unfold packBytes
  simp only [BitVec.getLsbD_append]
  obtain ⟨q, r, hq, hr, rfl⟩ : ∃ q r, q < 8 ∧ r < 8 ∧ i = 8 * q + r :=
    ⟨i / 8, i % 8, by omega, by omega, by omega⟩
  rw [show (8 * q + r) / 8 = q by omega, show (8 * q + r) % 8 = r by omega]
  interval_cases q <;> (repeat' split) <;> first | omega | (congr 1; omega)

theorem byteOf_packBytes (f : Nat → Byte) (k : Nat) (h : k < 8) : byteOf (packBytes f) k = f k := by
  apply BitVec.eq_of_getLsbD_eq
  intro i hi
  rw [getLsbD_byteOf, getLsbD_packBytes f _ (by omega)]
  simp [hi, show (8 * k + i) / 8 = k by omega, show (8 * k + i) % 8 = i by omega]

theorem packBytes_byteOf (v : Word) : packBytes (byteOf v) = v := by
  apply BitVec.eq_of_getLsbD_eq
  intro i hi
  rw [getLsbD_packBytes _ _ hi, getLsbD_byteOf]
  simp [show i % 8 < 8 by omega, show 8 * (i / 8) + i % 8 = i by omega]

theorem packBytes_congr (f g : Nat → Byte) (h : ∀ k, k < 8 → f k = g k) : packBytes f = packBytes g := by
  simp [packBytes, h]

/-! Reads after writes. -/

theorem Memory.byte?_putByte_self (m : Memory) (a : Nat) (b : Byte) :
    Memory.byte? (Memory.putByte m a b) a = some b := by
  induction m with
  | nil => simp [Memory.putByte, Memory.byte?]
  | cons c rest ih =>
    simp only [Memory.putByte]
    split
    · simp [Memory.byte?]
    · split
      · simp [Memory.byte?]
      · rw [Memory.byte?, if_neg (by omega), ih]

theorem Memory.byte?_putByte_ne (m : Memory) (a x : Nat) (b : Byte) (h : x ≠ a) :
    Memory.byte? (Memory.putByte m a b) x = Memory.byte? m x := by
  induction m with
  | nil => simp [Memory.putByte, Memory.byte?, Ne.symm h]
  | cons c rest ih =>
    simp only [Memory.putByte]
    split
    · rw [Memory.byte?, if_neg (Ne.symm h)]
    · split
      · rename_i h1 h2
        subst h2
        simp [Memory.byte?, Ne.symm h]
      · simp only [Memory.byte?, ih]

theorem Memory.byte?_putByte (m : Memory) (a x : Nat) (b : Byte) :
    Memory.byte? (Memory.putByte m a b) x = if x = a then some b else Memory.byte? m x := by
  split
  · rename_i h; rw [h, byte?_putByte_self]
  · rename_i h; rw [byte?_putByte_ne m a x b h]

/-- What a word write does to every byte: the eight bytes of the word, and no other. -/
theorem Memory.byte?_putWord (m : Memory) (w : Nat) (v : Word) (a : Nat) :
    Memory.byte? (Memory.putWord m w v) a =
      if a / 8 = w then some (byteOf v (a % 8)) else Memory.byte? m a := by
  simp only [Memory.putWord, List.range, List.range.loop, List.foldl, byte?_putByte]
  by_cases h : a / 8 = w
  · subst h
    obtain ⟨q, r, hr, rfl⟩ : ∃ q r, r < 8 ∧ a = 8 * q + r := ⟨a / 8, a % 8, by omega, by omega⟩
    rw [show (8 * q + r) / 8 = q by omega, show (8 * q + r) % 8 = r by omega, if_pos rfl]
    interval_cases r <;> simp
  · rw [if_neg h]
    repeat rw [if_neg (by omega)]

/-- What writing a run of order entries does to every byte. -/
theorem Memory.byte?_putIndices (l : List Nat) (m : Memory) (t a : Nat) :
    Memory.byte? (Memory.putIndices m t l) a =
      if t ≤ a / 8 ∧ a / 8 < t + l.length then
        some (byteOf (BitVec.ofNat 64 (l.getD (a / 8 - t) 0)) (a % 8))
      else Memory.byte? m a := by
  induction l generalizing m t with
  | nil =>
    have h : ¬(t ≤ a / 8 ∧ a / 8 < t + ([] : List Nat).length) := by simp
    rw [if_neg h, Memory.putIndices]
  | cons x rest ih =>
    rw [Memory.putIndices, ih, byte?_putWord]
    by_cases h0 : a / 8 = t
    · rw [if_neg (by omega), if_pos h0, if_pos (by simp; omega), h0]
      simp
    · rw [if_neg h0]
      by_cases h1 : t + 1 ≤ a / 8 ∧ a / 8 < t + 1 + rest.length
      · rw [if_pos h1, if_pos (by simp; omega)]
        obtain ⟨d, hd⟩ : ∃ d, a / 8 - t = d + 1 := ⟨a / 8 - t - 1, by omega⟩
        rw [hd, show a / 8 - (t + 1) = d by omega]
        simp
      · rw [if_neg h1, if_neg (by simp; omega)]

/-! The canonical form. -/

theorem Memory.wf_cons (c : Host.Cell) (m : Memory) :
    Memory.wf (c :: m) = true ↔ (∀ d ∈ m, c.1 < d.1) ∧ Memory.wf m = true := by
  induction m generalizing c with
  | nil => simp [Memory.wf]
  | cons d rest ih =>
    simp only [Memory.wf, Bool.and_eq_true, decide_eq_true_eq, List.mem_cons, forall_eq_or_imp, ih d]
    constructor
    · rintro ⟨h, h1, h2⟩
      exact ⟨⟨h, fun e he => Nat.lt_trans h (h1 e he)⟩, h1, h2⟩
    · rintro ⟨⟨h, _⟩, h1, h2⟩
      exact ⟨h, h1, h2⟩

theorem Memory.mem_putByte (m : Memory) (a : Nat) (b : Byte) (d : Host.Cell)
    (h : d ∈ Memory.putByte m a b) : d.1 = a ∨ d ∈ m := by
  induction m with
  | nil => simp [Memory.putByte] at h; simp [h]
  | cons c rest ih =>
    simp only [Memory.putByte] at h
    split at h
    · rcases List.mem_cons.1 h with h | h
      · simp [h]
      · exact .inr h
    · split at h
      · rcases List.mem_cons.1 h with h | h
        · simp [h]
        · exact .inr (List.mem_cons_of_mem _ h)
      · rcases List.mem_cons.1 h with h | h
        · exact .inr (by simp [h])
        · rcases ih h with h | h
          · exact .inl h
          · exact .inr (List.mem_cons_of_mem _ h)

theorem Memory.putByte_wf (m : Memory) (a : Nat) (b : Byte) (h : Memory.wf m = true) :
    Memory.wf (Memory.putByte m a b) = true := by
  induction m with
  | nil => rfl
  | cons c rest ih =>
    obtain ⟨hc, hr⟩ := (wf_cons c rest).1 h
    simp only [Memory.putByte]
    split
    · rename_i hlt
      refine (wf_cons _ _).2 ⟨fun d hd => ?_, h⟩
      rcases List.mem_cons.1 hd with rfl | hd
      · exact hlt
      · exact Nat.lt_trans hlt (hc d hd)
    · split
      · rename_i heq
        exact (wf_cons _ _).2 ⟨fun d hd => heq ▸ hc d hd, hr⟩
      · refine (wf_cons _ _).2 ⟨fun d hd => ?_, ih hr⟩
        rcases mem_putByte rest a b d hd with hd | hd
        · omega
        · exact hc d hd

theorem Memory.putWord_wf (m : Memory) (w : Nat) (v : Word) (h : Memory.wf m = true) :
    Memory.wf (Memory.putWord m w v) = true := by
  simp only [Memory.putWord, List.range, List.range.loop, List.foldl]
  iterate 8 apply putByte_wf
  exact h

theorem Memory.putIndices_wf (l : List Nat) (m : Memory) (t : Nat) (h : Memory.wf m = true) :
    Memory.wf (Memory.putIndices m t l) = true := by
  induction l generalizing m t with
  | nil => exact h
  | cons x rest ih => exact ih _ _ (putWord_wf m t _ h)

theorem Memory.within_putByte (n : Nat) (m : Memory) (a : Nat) (b : Byte) (ha : a < 8 * n)
    (h : ∀ c ∈ m, c.1 < 8 * n) : ∀ c ∈ Memory.putByte m a b, c.1 < 8 * n := by
  intro c hc
  rcases mem_putByte m a b c hc with hc | hc
  · omega
  · exact h c hc

theorem Memory.within_putWord (n : Nat) (m : Memory) (w : Nat) (v : Word) (hw : w < n)
    (h : ∀ c ∈ m, c.1 < 8 * n) : ∀ c ∈ Memory.putWord m w v, c.1 < 8 * n := by
  simp only [Memory.putWord, List.range, List.range.loop, List.foldl]
  iterate 8 refine within_putByte n _ _ _ (by omega) ?_
  exact h

theorem Memory.within_putIndices (n : Nat) (l : List Nat) (m : Memory) (t : Nat)
    (hl : t + l.length ≤ n) (h : ∀ c ∈ m, c.1 < 8 * n) :
    ∀ c ∈ Memory.putIndices m t l, c.1 < 8 * n := by
  induction l generalizing m t with
  | nil => exact h
  | cons x rest ih =>
    simp only [List.length_cons] at hl
    exact ih _ _ (by omega) (within_putWord n m t _ (by omega) h)

/-- The memory after reset has the canonical form. -/
theorem reset_memory_wf :
    Memory.wf State.reset.msg = true ∧ Memory.wf State.reset.ord = true := by decide

/-! Words of the two memories. -/

theorem State.msgWord_of_putWord (s : State) (w w' : Nat) (v : Word)
    (t : State) (hm : t.msg = Memory.putWord s.msg w v) (he : t.epoch = s.epoch) :
    t.msgWord w' = if w' = w then v else s.msgWord w' := by
  unfold State.msgWord State.msg8
  simp only [hm, he, Memory.byte?_putWord]
  split
  · rename_i h
    subst h
    rw [show v = packBytes (byteOf v) from (packBytes_byteOf v).symm]
    refine packBytes_congr _ _ fun k hk => ?_
    rw [if_pos (by omega), show (8 * w' + k) % 8 = k by omega, packBytes_byteOf]
    rfl
  · refine packBytes_congr _ _ fun k hk => ?_
    rw [if_neg (by omega)]

theorem State.ordWord_of_putIndices (s : State) (l : List Nat) (k : Nat) (hk : k < l.length)
    (t : State) (hm : t.ord = Memory.putIndices s.ord 0 l) :
    t.ordWord k = BitVec.ofNat 64 (l.getD k 0) := by
  unfold State.ordWord State.ord8
  simp only [hm, Memory.byte?_putIndices]
  rw [← packBytes_byteOf (BitVec.ofNat 64 (l.getD k 0))]
  refine packBytes_congr _ _ fun j hj => ?_
  rw [if_pos (by omega), show (8 * k + j) % 8 = j by omega, show (8 * k + j) / 8 - 0 = k by omega]
  simp

theorem State.ord8_of_putIndices_outside (s : State) (l : List Nat) (a : Nat) (ha : 8 * l.length ≤ a)
    (t : State) (hm : t.ord = Memory.putIndices s.ord 0 l) (he : t.epoch = s.epoch) :
    t.ord8 a = s.ord8 a := by
  unfold State.ord8
  rw [hm, he, Memory.byte?_putIndices, if_neg (by omega)]

end Sys2Proof.Machine
end

