-- ==== Sys2Proof/Laws/PerInstr.lean ====
section
/-! SUPPORT. A statement made of each command separately: it is well formed and its word decodes to it. -/

open Sys2Proof

def Sys2Proof.Laws.DecodesBack.Statement (i : Instr) : Prop :=
  Instr.wf i = true ∧ decode (encode i) = .ok i

theorem Sys2Proof.Laws.DecodesBack.nop : Sys2Proof.Laws.DecodesBack.Statement .nop := ⟨rfl, rfl⟩
theorem Sys2Proof.Laws.DecodesBack.init : Sys2Proof.Laws.DecodesBack.Statement .init := ⟨rfl, rfl⟩
theorem Sys2Proof.Laws.DecodesBack.ksnext : Sys2Proof.Laws.DecodesBack.Statement .ksnext := ⟨rfl, rfl⟩
theorem Sys2Proof.Laws.DecodesBack.shuffle : Sys2Proof.Laws.DecodesBack.Statement .shuffle := ⟨rfl, rfl⟩
theorem Sys2Proof.Laws.DecodesBack.mix : Sys2Proof.Laws.DecodesBack.Statement .mix := ⟨rfl, rfl⟩
theorem Sys2Proof.Laws.DecodesBack.absorb1 : Sys2Proof.Laws.DecodesBack.Statement .absorb1 := ⟨rfl, rfl⟩
theorem Sys2Proof.Laws.DecodesBack.absorb : Sys2Proof.Laws.DecodesBack.Statement .absorb := ⟨rfl, rfl⟩
theorem Sys2Proof.Laws.DecodesBack.fround : Sys2Proof.Laws.DecodesBack.Statement .fround := ⟨rfl, rfl⟩
theorem Sys2Proof.Laws.DecodesBack.final : Sys2Proof.Laws.DecodesBack.Statement .final := ⟨rfl, rfl⟩
theorem Sys2Proof.Laws.DecodesBack.hash : Sys2Proof.Laws.DecodesBack.Statement .hash := ⟨rfl, rfl⟩
theorem Sys2Proof.Laws.DecodesBack.clr : Sys2Proof.Laws.DecodesBack.Statement .clr := ⟨rfl, rfl⟩
end

