-- ==== Sys2Proof/Laws/Port.lean ====
section
/-! SUPPORT. Once for each operation of the host port: everything it can do. -/

namespace Sys2Proof.Machine

open Sys2Proof

/-- Everything a register write can do: it touches only writable registers and `MSG`, and it changes `VAR`,
`LEN` or `MSG` only where the locked class is open, with the phase IDLE after it (R65, R66). -/
theorem writeLoc_cases (s t : State) (v : Word) (l : Location) (h : writeLoc s v l = some t) :
    t = { s with
      ie := t.ie, var := t.var, ip := t.ip, len := t.len, ks := t.ks, mxx := t.mxx, mxrp := t.mxrp,
      msg := t.msg, phase := t.phase } ∧
    ((t.phase = s.phase ∧ t.var = s.var ∧ t.len = s.len ∧ t.msg = s.msg) ∨
      (s.unlocked = true ∧ t.phase = .idle ∧
        (t.msg = s.msg ∨ ∃ w, l = .msg w ∧ t.msg = Memory.putWord s.msg w v))) := by
  cases l <;> simp only [writeLoc] at h
  all_goals first | (cases h; done) | skip
  all_goals first | (cases h; exact ⟨rfl, .inl ⟨rfl, rfl, rfl, rfl⟩⟩) | skip
  all_goals
    split at h
    · rename_i hu
      cases h
      first
      | exact ⟨rfl, .inr ⟨hu, rfl, .inl rfl⟩⟩
      | exact ⟨rfl, .inr ⟨hu, rfl, .inr ⟨_, rfl, rfl⟩⟩⟩
    · cases h

/-- A located word of `MSG` is inside it. -/
theorem locate_msg (n : Nat) (o : Offset) (w : Nat) (h : locate n o = some (.msg w)) : w < n := by
  unfold locate at h
  simp only at h
  split at h
  · split at h
    · unfold registerAt at h; split at h <;> cases h
    · split at h
      · cases h
      · split at h
        · cases h
        · split at h <;> cases h
  · split at h
    · cases h; assumption
    · cases h
  · split at h <;> cases h
  · cases h

/-- A read answers a response and nothing else. -/
theorem hostRead_eq (s : State) (o : Offset) (n : Nat) :
    ∃ r, hostRead s o n = s.respond r := by
  unfold hostRead
  split
  · split <;> exact ⟨_, rfl⟩
  · exact ⟨_, rfl⟩

/-- A transaction while `BUSY = 1` answers a response, and at most counts a read of `STATUS`. -/
theorem busyAccess_eq (s : State) (t : Txn) :
    ∃ r d, busyAccess s t = { s with resp := some r, draws := d } := by
  cases t with
  | read o n =>
    unfold busyAccess
    simp only
    split
    · exact ⟨_, _, rfl⟩
    · exact ⟨_, s.draws, rfl⟩
  | write o n v => exact ⟨_, s.draws, rfl⟩

end Sys2Proof.Machine
end

