-- ==== Sys2Proof/Laws/Words.lean ====
section
/-! SUPPORT. Reads after writes in the register file `S` and in the ARX working state, and the
length of the order. -/

namespace Sys2Proof.Machine

open Sys2Proof

/-- Register indices are taken modulo 8. -/
theorem readS_mod (S : Vector Word 8) (j : Nat) : readS S j = readS S (j % 8) := by
  simp [readS]

/-- A read of `S` after a write. -/
theorem readS_writeS (S : Vector Word 8) (i j : Nat) (v : Word) (hi : i < 8) (hj : j < 8) :
    readS (writeS S i v) j = if i = j then v else readS S j := by
  simp only [readS, writeS, Vector.getElem_set, Nat.mod_eq_of_lt hi, Nat.mod_eq_of_lt hj]

/-- Every word of the working state after a quarter-round. -/
theorem getElem_quarterRound (w : Vector Half 16) (a b c d i : Fin 16) :
    (quarterRound w a b c d)[i] =
      if d = i then (quarterWords w[a] w[b] w[c] w[d]).2.2.2
      else if c = i then (quarterWords w[a] w[b] w[c] w[d]).2.2.1
      else if b = i then (quarterWords w[a] w[b] w[c] w[d]).2.1
      else if a = i then (quarterWords w[a] w[b] w[c] w[d]).1 else w[i] := by
  simp only [quarterRound, Fin.getElem_fin, Vector.getElem_set, Fin.ext_iff]

/-- A swap of two entries keeps the length. -/
@[simp] theorem swapAt_length (order : List Nat) (i j : Nat) :
    (swapAt order i j).length = order.length := by
  simp [swapAt]

/-- The order has one entry for each block. -/
theorem shuffleLoop_length (arxC : Vector Half 4) (var : Variant) (i : Nat) (order : List Nat)
    (seed : Word) : (shuffleLoop arxC var i order seed).1.length = order.length := by
  induction i generalizing order seed with
  | zero => rfl
  | succ i ih => simp [shuffleLoop, ih]

theorem shuffle_length (arxC : Vector Half 4) (var : Variant) (len : Word) :
    (shuffle arxC var len).1.length = (ceilDiv8 len).toNat := by
  simp [shuffle, shuffleLoop_length]

end Sys2Proof.Machine
end

