-- ==== Sys2Proof/Tests/Slice0.lean ====
section
/-! SUPPORT. Tests: the well-formedness smoke, the command words, vectors of spec/95_test_vectors.md and of
the rules' examples, and for each statement with hypotheses a state that meets them. -/

namespace Sys2Proof.Tests

open Sys2Proof Sys2Proof.Machine

/-! Helpers. -/

/-- A state in a given phase, with a message length. -/
def at' (phase : Phase) (len : Word) : State := { State.reset with phase := phase, len := len }

/-- The next state, or the state itself where the outcome is a stop. -/
def stateOf (s : State) : Host.Outcome State Fault Refusal → State
  | .next t => t
  | .fault _ => s
  | .refused _ => s

def isNext : Host.Outcome State Fault Refusal → Bool
  | .next _ => true
  | .fault _ => false
  | .refused _ => false

/-- The state a command leaves. -/
def after (i : Instr) (s : State) : State := stateOf s (exec i s)

theorem next_of (s : State) (o : Host.Outcome State Fault Refusal) (h : isNext o = true) :
    o = .next (stateOf s o) := by
  cases o with
  | next t => rfl
  | fault r => cases h
  | refused r => cases h

/-- Parameters with few rounds, for short runs; every other parameter at its default. -/
def few : Params := { Params.default with rA := 1, rB := 1 }

/-- Writes the first word of the message, and its length, as the host does. -/
def abc (s : State) : State :=
  { s with len := 3, msg := Memory.putWord s.msg 0 0x0000000000636261 }

/-! ## The well-formedness smoke: an ill-formed term for each check -/

theorem test_wf_every_command : (Instr.wf .nop && Instr.wf .init && Instr.wf .ksnext &&
    Instr.wf .shuffle && Instr.wf .mix && Instr.wf .absorb1 && Instr.wf .absorb && Instr.wf .fround &&
    Instr.wf .final && Instr.wf .hash && Instr.wf .clr) = true := by decide
theorem test_wf_refuses_size : Txn.wf (.read 0x20 4) = false ∧ Txn.wf (.write 0x20 16 0) = false := by
  decide
theorem test_wf_refuses_misaligned :
    Txn.wf (.read 0x24 8) = false ∧ Txn.wf (.write 0x31 8 0) = false := by decide
theorem test_wf_accepts_aligned : Txn.wf (.read 0x20 8) = true ∧ Txn.wf (.write 0x30 8 0) = true := by
  decide
theorem test_wf_accepts_default : Params.wf Params.default = true := by decide
theorem test_wf_refuses_rA : Params.wf { Params.default with rA := 0 } = false ∧
    Params.wf { Params.default with rA := 2 ^ 32 } = false := by decide
theorem test_wf_refuses_rB : Params.wf { Params.default with rB := 0 } = false ∧
    Params.wf { Params.default with rB := 2 ^ 32 } = false := by decide
theorem test_wf_refuses_capacity : Params.wf { Params.default with msgWords := 0 } = false ∧
    Params.wf { Params.default with msgWords := 2 ^ 27 + 1 } = false := by decide

/-! ## Decoding: the words of the table of R86, written out -/

theorem test_decode_nop : decodeTableWord 64 0x0000000000000000 = some .nop := by decide
theorem test_decode_init : decodeTableWord 64 0x0000000000000001 = some .init := by decide
theorem test_decode_ksnext : decodeTableWord 64 0x0000000000000002 = some .ksnext := by decide
theorem test_decode_shuffle : decodeTableWord 64 0x0000000000000003 = some .shuffle := by decide
theorem test_decode_mix : decodeTableWord 64 0x0000000000000004 = some .mix := by decide
theorem test_decode_absorb1 : decodeTableWord 64 0x0000000000000005 = some .absorb1 := by decide
theorem test_decode_absorb : decodeTableWord 64 0x0000000000000006 = some .absorb := by decide
theorem test_decode_fround : decodeTableWord 64 0x0000000000000007 = some .fround := by decide
theorem test_decode_final : decodeTableWord 64 0x0000000000000008 = some .final := by decide
theorem test_decode_hash : decodeTableWord 64 0x0000000000000009 = some .hash := by decide
theorem test_decode_clr : decodeTableWord 64 0x000000000000000F = some .clr := by decide
theorem test_decode_gap : decode 0x0A = .error .unknownOpcode ∧ decode 0x0E = .error .unknownOpcode ∧
    decode 0x10 = .error .unknownOpcode ∧ decode 0xFF = .error .unknownOpcode := by decide
theorem test_decode_upper_bits : decode 0x0109 = .error .reservedBits ∧
    decode 0x8000000000000000 = .error .reservedBits ∧ decode 0x010A = .error .reservedBits := by decide

/-- The host's two questions, on one word. -/
theorem test_step_runs_the_word :
    isNext (step (State.reset.withFetchWord 64 1)) = true ∧
    (stateOf State.reset (step (State.reset.withFetchWord 64 1))).phase = .ready := by decide +kernel

/-! ## Vectors of the units (spec/95_test_vectors.md section 2) -/

/-- V-KSA, seeds 1 and 0123456789ABCDEF. -/
theorem test_ksA : ksNextA 1 = (0x47E4CE4B896CDD1D, 0x2000001) ∧
    ksNextA 0x0123456789ABCDEF = (0x7C9482472CB6708C, 0xA69CF1E9AA4D68FC) := by decide +kernel
/-- V-KSB, the quarter-round alone. -/
theorem test_quarterWords : quarterWords 0x11111111 0x01020304 0x9B8D6F43 0x01234567 =
    (0xEA2A92F4, 0xCB1CF8CE, 0x4581472E, 0x5881C4BB) := by decide +kernel
/-- V-KSB, seeds 0123456789ABCDEF and FFFFFFFFFFFFFFFF. -/
theorem test_ksB :
    ksNextB Params.default.arxC 0x0123456789ABCDEF = (0xB86FA6C64E2C9760, 0x0123456789ABCDF0) ∧
    ksNextB Params.default.arxC 0xFFFFFFFFFFFFFFFF = (0xC86AD5CEA7804488, 0) := by decide +kernel
/-- V-SHUF, A and B, `len` 40. -/
theorem test_shuffle40 :
    shuffle Params.default.arxC .A 40 = ([4, 2, 3, 1, 0], 0xE4DE1E5335F4CE9F) ∧
    shuffle Params.default.arxC .B 40 = ([0, 1, 2, 4, 3], 0xCB25D577B7CD2DB4) := by decide +kernel
/-- V-LV, spot checks. -/
theorem test_lv : latticeVec 0x9E3779B97F4A7C15 0 = 1 ∧
    latticeVec 0x9E3779B97F4A7C15 63 = 0xEFA6F4A6535486A9 := by decide +kernel
/-- V-MIX, `rp = 10007`. -/
theorem test_mix :
    mix .A 0x8000000000000001 (Params.lv Params.default) 0x2717 = 0x6CDE7527DB429E22 ∧
    mix .B 0x8000000000000001 (Params.lv Params.default) 0x2717 = 0x275A283C479D28C4 := by
  decide +kernel
/-- V-ABS, variant A, "abcdefghi", index 1: the masked last block. -/
theorem test_absorb_masked :
    absorbBlock (Params.lv Params.default) .A (fun a => BitVec.ofNat 8 (0x61 + a)) 9 Params.default.iv 1 =
      #v[0x015DE9262A0ADD05, 0x0EA8874B8FC12914, 0xBE6B1A053AA941B0, 0x52B178A3EF52D936,
        0xF4E1BF5A6083ACB3, 0xAA3DB21BE9D2381D, 0x6003B824D02D70E6, 0x070D58B27B5BEEB5] := by
  decide +kernel
/-- V-DIG, `R = 2`, variant A, the empty message. -/
theorem test_digest_empty :
    digest { Params.default with rA := 2 } .A [] =
      #v[0x13946FE62E9320CB, 0xA9ABAE74AEFD0BB9, 0xB7FC08B445FE4D99, 0x3BC9CE39280DD547,
        0x6C9E15648219931E, 0x62A2C99F97F67B62, 0x23C95E976D8B3B84, 0xBB3BD5E9457A5D5F] := by
  decide +kernel

/-! ## One step of each command -/

/-- V-IRQ: `CMD NOP` from reset. -/
theorem test_nop : (after .nop State.reset).status = 0x08 ∧ (after .nop State.reset).irq = false := by
  decide
/-- R183, example: `LEN = 3`. -/
theorem test_init : (after .init (at' .idle 3)).status = 0x18 ∧
    readS (after .init (at' .idle 3)).sreg 0 = 0x6A09E667F3BCC908 := by decide +kernel
/-- R204, example: `LEN = 4097` is too long, `LEN = 4096` is not. -/
theorem test_init_too_long : (after .init (at' .idle 4097)).status = 0x30C ∧
    (after .init (at' .idle 4097)).errinfo = 1 ∧ (after .init (at' .idle 4096)).status = 0x18 := by
  decide +kernel
/-- P3 line 2. -/
theorem test_ksnext : (after .ksnext { State.reset with ks := 1 }).ksout = 0x47E4CE4B896CDD1D ∧
    (after .ksnext { State.reset with ks := 1 }).ks = 0x2000001 := by decide +kernel
/-- P2 line 8. -/
theorem test_shuffle : (after .shuffle (at' .ready 40)).ordWord 0 = 4 ∧
    (after .shuffle (at' .ready 40)).ordWord 4 = 0 ∧
    (after .shuffle (at' .ready 40)).status = 0x28 := by decide +kernel
/-- P3 line 9: refused in phase IDLE. -/
theorem test_shuffle_refused : (after .shuffle State.reset).status = 0x20C ∧
    (after .shuffle State.reset).errinfo = 3 := by decide
/-- P3 line 8. -/
theorem test_mix_command :
    (after .mix { State.reset with var := .B, mxx := 0x0123456789ABCDEF, mxrp := 5 }).mxout =
      0x915BDE94B96C0469 := by decide +kernel

/-- A state in PERMUTED whose one block is "abc", `S = IV`. -/
def permutedAbc : State :=
  { abc { State.reset with par := few } with
    phase := .permuted, sreg := few.iv, ord := Memory.putWord [] 0 0 }

/-- V-ABS, variant A, "abc". -/
theorem test_absorb1 : readS (after .absorb1 permutedAbc).sreg 0 = 0x98865A88A7DD573E ∧
    (after .absorb1 permutedAbc).phase = .absorbed ∧ (after .absorb1 permutedAbc).t = 1 := by
  decide +kernel
theorem test_absorb : readS (after .absorb permutedAbc).sreg 7 = 0x508B682A3D9E53E5 ∧
    (after .absorb permutedAbc).phase = .absorbed := by decide +kernel
/-- R169, example: two rounds over `IV`; the second gives this `S[0]`. -/
theorem test_fround :
    (after .fround (after .fround { at' .absorbed 0 with sreg := Params.default.iv })).rnd = 2 ∧
    readS (after .fround (after .fround { at' .absorbed 0 with sreg := Params.default.iv })).sreg 0 =
      0x13946FE62E9320CB := by decide +kernel
/-- As above, by `FINAL` with `R_A = 2`. -/
theorem test_final :
    (after .final { at' .absorbed 0 with sreg := Params.default.iv, par := { few with rA := 2 } }).status
      = 0x4A ∧
    readS (after .final
      { at' .absorbed 0 with sreg := Params.default.iv, par := { few with rA := 2 } }).sreg 0 =
      0x13946FE62E9320CB := by decide +kernel
/-- V-DIG, `R = 2`, variant A, "abc". -/
theorem test_hash :
    readS (after .hash (abc { State.reset with par := { few with rA := 2 } })).sreg 0 =
      0xCFAD66292DE56603 := by decide +kernel
/-- R184, example: `STATUS = 0x20C` before, 0 after. -/
theorem test_clr : (after .shuffle State.reset).status = 0x20C ∧
    (after .clr (after .shuffle State.reset)).status = 0 ∧
    (after .clr (after .shuffle State.reset)).errinfo = 0 := by decide

/-! ## The port (V-BUS, P5) -/

/-- One transaction served. -/
def served (s : State) (x : Txn) : State := stateOf s (step (s.withAccess x))

theorem test_read_id : (served State.reset (.read 0x00 8)).resp = some (.data 0x4348415259424431) := by
  decide +kernel
theorem test_read_hole : (served State.reset (.read 0xC0 8)).resp = some .error ∧
    (served State.reset (.read 0x400 8)).resp = some .error ∧
    (served State.reset (.read 0x40001000 8)).resp = some .error ∧
    (served State.reset (.read 0xC0000000 8)).resp = some .error := by decide +kernel
theorem test_write_read_only : (served State.reset (.write 0x80 8 1)).resp = some .error ∧
    (served State.reset (.write 0x80000000 8 1)).resp = some .error := by decide +kernel
theorem test_write_message : (served State.reset (.write 0x40000000 8 0x636261)).msgWord 0 = 0x636261 := by
  decide +kernel
/-- P3 line 12. -/
theorem test_illegal_word : (served State.reset (.write 0x30 8 0x109)).status = 0x10C ∧
    (served State.reset (.write 0x30 8 0x109)).errinfo = 0x109 := by decide +kernel
/-- P5 lines 2 and 4. -/
theorem test_lock : (served (at' .done 0) (.write 0x38 8 3)).phase = .idle ∧
    (served (at' .ready 3) (.write 0x38 8 4)).resp = some .error ∧
    (served (at' .ready 3) (.write 0x38 8 4)).len = 3 := by decide +kernel

/-! ## Witnesses: for each statement with hypotheses, a case that meets them -/

/-- A state with a recorded error. -/
def failed : State := after .shuffle State.reset

/-- A command in execution, and one early transaction. -/
def busyWith (x : Txn) : State :=
  { State.reset with
    running := some .nop, inbox := [{ event := .access x, early := true }] }

theorem test_witness_nop : State.reset.err = false ∧ failed.err = true := by decide
theorem test_witness_init : (at' .idle 4096).err = false ∧
    (at' .idle 4096).bcnt.toNat ≤ (at' .idle 4096).par.msgWords ∧
    (at' .idle 4097).par.msgWords < (at' .idle 4097).bcnt.toNat := by decide
theorem test_witness_ksnext : (at' .done 8).err = false ∧ failed.err = true := by decide
theorem test_witness_shuffle : (at' .ready 4096).err = false ∧ (at' .ready 4096).phase = .ready ∧
    (at' .ready 4096).bcnt.toNat ≤ (at' .ready 4096).par.msgWords ∧ (at' .idle 0).phase ≠ .ready := by
  decide
theorem test_witness_mix : (at' .permuted 8).err = false ∧ failed.err = true := by decide

/-- PERMUTED with the last order entry of a full message written. -/
def lastBlock : State :=
  { at' .permuted 4096 with t := 511, ord := Memory.putWord [] 511 511 }

theorem test_witness_absorb1 : lastBlock.err = false ∧ lastBlock.phase = .permuted ∧
    lastBlock.t.toNat < lastBlock.par.msgWords ∧
    (lastBlock.ordWord lastBlock.t.toNat).toNat < lastBlock.par.msgWords ∧
    (at' .ready 8).phase ≠ .permuted := by decide +kernel
theorem test_witness_absorb : lastBlock.err = false ∧ lastBlock.phase = .permuted ∧
    lastBlock.t.toNat < lastBlock.bcnt.toNat ∧ lastBlock.bcnt.toNat ≤ lastBlock.par.msgWords ∧
    (∀ k, lastBlock.t.toNat ≤ k → k < lastBlock.bcnt.toNat →
      (lastBlock.ordWord k).toNat < lastBlock.par.msgWords) ∧
    (at' .absorbed 8).phase = .absorbed ∧
    (at' .done 8).phase ≠ .permuted ∧ (at' .done 8).phase ≠ .absorbed := by
  refine ⟨by decide, by decide, by decide, by decide, fun k h1 h2 => ?_, by decide⟩
  have e1 : lastBlock.t.toNat = 511 := by decide
  have e2 : lastBlock.bcnt.toNat = 512 := by decide
  obtain rfl : k = 511 := by omega
  decide +kernel
theorem test_witness_fround : (at' .absorbed 0).err = false ∧ (at' .absorbed 0).phase = .absorbed ∧
    (at' .done 0).phase ≠ .absorbed := by decide
theorem test_witness_final :
    { at' .absorbed 0 with rnd := 9999 }.err = false ∧
    { at' .absorbed 0 with rnd := 9999 }.phase = .absorbed ∧
    { at' .absorbed 0 with rnd := 9999 }.rnd.toNat < State.rounds { at' .absorbed 0 with rnd := 9999 } ∧
    State.rounds { at' .absorbed 0 with rnd := 9999 } < 2 ^ 32 ∧ (at' .done 0).phase = .done ∧
    (at' .permuted 8).phase ≠ .absorbed ∧ (at' .permuted 8).phase ≠ .done := by decide
theorem test_witness_hash : (at' .absorbed 4096).err = false ∧
    Params.wf (at' .absorbed 4096).par = true ∧
    (at' .absorbed 4096).bcnt.toNat ≤ (at' .absorbed 4096).par.msgWords ∧
    (at' .absorbed 4097).par.msgWords < (at' .absorbed 4097).bcnt.toNat := by decide

/-- A state in which each command is accepted. -/
def ready : Instr → State
  | .nop | .init | .ksnext | .mix => State.reset
  | .shuffle => at' .ready 40
  | .absorb1 | .absorb => permutedAbc
  | .fround => at' .absorbed 0
  | .final => { at' .absorbed 0 with par := few }
  | .hash => abc { State.reset with par := few }
  | .clr => failed

/-- For `CommandsWriteOnlyTheirColumn` and `PhaseMovesAsListed`: every command, accepted, answers a next state. -/
theorem test_witness_frames (i : Instr) :
    (ready i).accepts i = true ∧ exec i (ready i) = .next (after i (ready i)) := by
  cases i <;> exact ⟨by decide +kernel, next_of _ _ (by decide +kernel)⟩
theorem test_witness_phase_refused :
    State.reset.accepts .final = false ∧ exec .final State.reset = .next (after .final State.reset) ∧
    failed.accepts .nop = false ∧ exec .nop failed = .next failed := by
  refine ⟨by decide, rfl, by decide, rfl⟩
theorem test_witness_ip : exec .nop failed = .next failed ∧
    exec .clr failed = .next (after .clr failed) ∧ exec .nop State.reset = .next (after .nop State.reset) :=
  ⟨rfl, rfl, rfl⟩
theorem test_witness_out_of_sequence : State.reset.err = false ∧
    (∀ i ∈ [Instr.shuffle, .absorb1, .absorb, .fround, .final],
      exec i State.reset = .next (after i State.reset)) ∧
    (after .final State.reset).errc = .seq ∧ State.reset.errc ≠ .seq := by
  refine ⟨rfl, fun i _ => ?_, by decide⟩
  cases i <;> exact next_of _ _ (by decide +kernel)
theorem test_witness_illegal_word : State.reset.running = none ∧ State.reset.err = false ∧
    (0x0A : Word).toNat % 256 ∉ [0, 1, 2, 3, 4, 5, 6, 7, 8, 9, 15] ∧
    (0x10 : Word).toNat % 256 ∉ [0, 1, 2, 3, 4, 5, 6, 7, 8, 9, 15] ∧
    (0x100 : Word).toNat / 256 ≠ 0 ∧ (0x8000000000000000 : Word).toNat / 256 ≠ 0 := by decide
theorem test_witness_only_clr : failed.running = none ∧ failed.err = true ∧ (0 : Word) ≠ 0x0F := by
  decide
theorem test_witness_step : ∃ s : State, s.running = none ∧
    s.inbox = { event := .access (.write 0x30 8 0x9), early := false } :: [] ∧
    decode 0x9 = .ok .hash ∧ Instr.wf .hash = true ∧ ({ s with inbox := [] } : State).nextIsEarly = false :=
  ⟨State.reset.withCommand 9, rfl, rfl, by decide, rfl, rfl⟩
theorem test_witness_stay :
    (∃ s : State, s.running = none ∧
      s.inbox = { event := .access (.write 0x30 8 (encode .nop)), early := false } ::
        { event := .reset, early := true } :: [] ∧ s.accepts .nop = true) ∧
    ∃ s : State, s.running = some .nop ∧ s.nextIsEarly = false :=
  ⟨⟨{ State.reset with inbox := [commandWrite 0, { event := .reset, early := true }] }, rfl, rfl, rfl⟩,
    ⟨{ State.reset with running := some .nop }, rfl, rfl⟩⟩
theorem test_witness_busy : (busyWith (.read 0x20 8)).running = some .nop ∧
    (busyWith (.read 0x20 8)).inbox = { event := .access (.read 0x20 8), early := true } :: [] ∧
    (busyWith (.write 0x20 8 8)).inbox = { event := .access (.write 0x20 8 8), early := true } :: [] ∧
    Txn.write 0x20 8 8 ≠ .read 0x20 8 := by decide
theorem test_witness_window :
    (busyWith (.write 0x30 8 0)).running = some .nop ∧
    (busyWith (.write 0x30 8 0)).inbox =
      [Txn.write 0x30 8 0].map (fun x => { event := .access x, early := true }) ∧
    exec .nop { busyWith (.write 0x30 8 0) with running := none, inbox := [] } =
      .next (after .nop { busyWith (.write 0x30 8 0) with running := none, inbox := [] }) :=
  ⟨rfl, rfl, rfl⟩
theorem test_witness_idle : State.reset.running = none ∧ State.reset.inbox = [] := ⟨rfl, rfl⟩
theorem test_witness_reset :
    (∃ s : State, s.inbox = { event := .reset, early := false } :: [] ∧ s.running = none) ∧
    ∃ s : State, s.inbox = { event := .reset, early := true } :: [] ∧ s.running = some .hash :=
  ⟨⟨{ at' .done 3 with inbox := [{ event := .reset, early := false }] }, rfl, rfl⟩,
    ⟨{ at' .idle 3 with running := some .hash, inbox := [{ event := .reset, early := true }] }, rfl, rfl⟩⟩
theorem test_witness_reset_table : ∃ r s : State, r = s.resetEvent ∧ s.phase = .done :=
  ⟨_, at' .done 3, rfl, rfl⟩
theorem test_witness_register_map : (2 : Nat) ^ 27 ≤ 2 ^ 27 ∧ (Location.s 7).mapped (2 ^ 27) = true ∧
    (Location.lv 63).mapped (2 ^ 27) = true ∧ (Location.msg (2 ^ 27 - 1)).mapped (2 ^ 27) = true ∧
    (Location.ord (2 ^ 27 - 1)).mapped (2 ^ 27) = true ∧
    (0xBFFFFFF8 : Offset).toNat % 8 = 0 ∧
    locate (2 ^ 27) 0xBFFFFFF8 = some (.ord (2 ^ 27 - 1)) := by decide +kernel
theorem test_witness_reads : State.reset.running = none ∧ State.reset.par.msgWords ≤ 2 ^ 27 ∧
    7 < 8 ∧ 63 < 64 ∧ 511 < State.reset.par.msgWords := by decide
theorem test_witness_plain_writes : (at' .ready 3).running = none := rfl
theorem test_witness_locked : (at' .ready 3).running = none ∧ 511 < (at' .ready 3).par.msgWords ∧
    (at' .ready 3).par.msgWords ≤ 2 ^ 27 ∧ (at' .ready 3).phase = .ready ∧
    (at' .permuted 3).phase = .permuted ∧ (at' .absorbed 3).phase = .absorbed ∧
    (at' .idle 3).phase = .idle ∧ (at' .done 3).phase = .done := by decide
theorem test_witness_bus_errors : (at' .ready 3).running = none ∧ (4 : Nat) ≠ 8 ∧
    (0x24 : Offset).toNat % 8 ≠ 0 ∧
    (0xC0 ≤ (0x1F8 : Offset).toNat ∧ (0x1F8 : Offset).toNat < 0x200) ∧
    (0x400 ≤ (0x3FFFFFF8 : Offset).toNat ∧ (0x3FFFFFF8 : Offset).toNat < 0x40000000) ∧
    (0x40000000 + 8 * (at' .ready 3).par.msgWords ≤ (0x40001000 : Offset).toNat ∧
      (0x40001000 : Offset).toNat < 0x80000000) ∧
    (0x80000000 + 8 * (at' .ready 3).par.msgWords ≤ (0x80001000 : Offset).toNat ∧
      (0x80001000 : Offset).toNat < 0xC0000000) ∧ 0xC0000000 ≤ (0xC0000000 : Offset).toNat ∧
    (0x78 : Offset).toNat ∈ [0x00, 0x08, 0x28, 0x48, 0x60, 0x68, 0x70, 0x78] ∧
    (0x80 ≤ (0xB8 : Offset).toNat ∧ (0xB8 : Offset).toNat < 0xC0) ∧
    (0x200 ≤ (0x3F8 : Offset).toNat ∧ (0x3F8 : Offset).toNat < 0x400) ∧
    (0x80000000 ≤ (0x80000FF8 : Offset).toNat ∧ (0x80000FF8 : Offset).toNat < 0xC0000000) ∧
    (at' .ready 3).phase = .ready ∧ (0x38 : Offset).toNat ∈ [0x18, 0x38] ∧
    (0x40000000 ≤ (0x40000FF8 : Offset).toNat ∧ (0x40000FF8 : Offset).toNat < 0x80000000) := by decide
theorem test_witness_bus_error_busy : (busyWith (.read 0x28 8)).running = some .nop ∧
    (busyWith (.read 0x28 8)).inbox = { event := .access (.read 0x28 8), early := true } :: [] ∧
    Txn.read 0x28 8 ≠ .read 0x20 8 := by decide
theorem test_witness_seed : (0 : Word) ≠ 1 ∧ (ksNextA 5).2 = (ksNextA 5).2 := by decide
theorem test_witness_quarter_rounds :
    ([(3, 7, 11, 15), (1, 5, 9, 13), (0, 4, 8, 12), (2, 6, 10, 14)] :
      List (Fin 16 × Fin 16 × Fin 16 × Fin 16)).Perm
        [(0, 4, 8, 12), (1, 5, 9, 13), (2, 6, 10, 14), (3, 7, 11, 15)] ∧
    ([(2, 7, 8, 13), (0, 5, 10, 15), (3, 4, 9, 14), (1, 6, 11, 12)] :
      List (Fin 16 × Fin 16 × Fin 16 × Fin 16)).Perm
        [(0, 5, 10, 15), (1, 6, 11, 12), (2, 7, 8, 13), (3, 4, 9, 14)] := by decide
theorem test_witness_short : (0 : Word) = 0 ∧ (1 ≤ (1 : Word).toNat ∧ (1 : Word).toNat ≤ 8) ∧
    (1 ≤ (8 : Word).toNat ∧ (8 : Word).toNat ≤ 8) := by decide
theorem test_witness_mixA : (List.range 64).reverse.Perm (List.range 64) := List.reverse_perm _
theorem test_witness_mixB_high :
    (0 : Word).extractLsb' 0 39 = (0x8000008000000000 : Word).extractLsb' 0 39 := by decide
theorem test_witness_mixB_zero : ∀ i, i < 64 → (fun _ => 0 : Nat → Word) i = 0 := fun _ _ => rfl
theorem test_witness_block_load : (1 : Word).toNat < 2 ^ 61 ∧
    8 * (1 : Word).toNat + 8 ≤ (at' .idle 16).len.toNat ∧
    (0x1FFFFFFFFFFFFFFF : Word).toNat < 2 ^ 61 ∧
    8 * (0x1FFFFFFFFFFFFFFF : Word).toNat < (at' .idle 0xFFFFFFFFFFFFFFFF).len.toNat ∧
    (at' .idle 0xFFFFFFFFFFFFFFFF).len.toNat < 8 * (0x1FFFFFFFFFFFFFFF : Word).toNat + 8 := by decide
theorem test_witness_absorb_loop : ∃ S S' : Vector Word 8,
    S' = (List.range 8).foldl (absorbWord (Params.lv few) .A 1 0x1FFFFFFFFFFFFFFF) S ∧ 7 < 8 ∧
    (0x1FFFFFFFFFFFFFFF : Word).toNat < 2 ^ 61 := ⟨few.iv, _, rfl, by decide, by decide⟩
theorem test_witness_final_loop : ∃ S S' : Vector Word 8,
    S' = (List.range 8).foldl (finalWord (Params.lv few) .A 0) S ∧ 7 < 8 := ⟨few.iv, _, rfl, by decide⟩
theorem test_witness_message_only : (∀ a, a < (3 : Word).toNat →
      (fun _ => 0 : Nat → Byte) a = (fun a => if a < 3 then 0 else 1 : Nat → Byte) a) ∧
    (fun _ => 0 : Nat → Byte) 3 ≠ (fun a => if a < 3 then 0 else 1 : Nat → Byte) 3 := by decide
theorem test_witness_host_loads : ∃ inputs : List Input,
    State.reset.running = none ∧ State.reset.err = false ∧ Params.wf State.reset.par = true ∧
    (State.reset.phase = .idle ∨ State.reset.phase = .done) ∧
    (List.replicate 4096 (0x61 : Byte)).length ≤ 8 * State.reset.par.msgWords ∧
    inputs = scriptInputs [.wr .cfg 1, .loadMsg (List.replicate 4096 0x61), .cmd .hash] :=
  ⟨_, rfl, rfl, by decide, .inl rfl, by rw [List.length_replicate]; decide, rfl⟩

/-- The machine after reset with a short computation, and one more command, still to come. -/
def waiting : State :=
  { State.reset with
    par := few
    inbox := [memWrite 0x40000000 0x636261, memWrite 0x38 3, commandWrite 1, commandWrite 3, commandWrite 5,
      commandWrite 7] }

theorem test_witness_steps : Memory.wf waiting.msg = true ∧ Memory.wf waiting.ord = true ∧
    step waiting = .next (stateOf waiting (step waiting)) :=
  ⟨rfl, rfl, next_of _ _ (by decide +kernel)⟩
theorem test_witness_error_fields : waiting.errorFieldsAgree ∧
    step waiting = .next (stateOf waiting (step waiting)) := by
  refine ⟨?_, next_of _ _ (by decide +kernel)⟩
  simp [State.errorFieldsAgree, waiting, State.reset]
theorem test_witness_parameters : step waiting = .next (stateOf waiting (step waiting)) :=
  next_of _ _ (by decide +kernel)
theorem test_witness_power_up : Params.wf few = true ∧
    Params.wf { few with rA := 2 ^ 32 - 1, rB := 2 ^ 32 - 1, msgWords := 2 ^ 27 } = true := by decide
theorem test_witness_invariant : State.Inv waiting ∧
    step waiting = .next (stateOf waiting (step waiting)) := by
  refine ⟨⟨by decide, rfl, rfl, ?_, ?_, ?_, ?_, trivial⟩, next_of _ _ (by decide +kernel)⟩
  · intro c hc; cases hc
  · intro c hc; cases hc
  · simp [State.errorFieldsAgree, waiting, State.reset]
  · intro i hi; cases hi

/-- A command in execution, a read of `STATUS` before its end and one after it. -/
def inExecution : State :=
  { State.reset with
    running := some .init
    inbox := [{ event := .access (.read 0x20 8), early := true }, memRead 0x20] }

theorem test_witness_steps_on : State.Inv inExecution ∧
    State.Inv { inExecution with inbox := [memRead 0x20] } ∧
    { inExecution with inbox := [memRead 0x20] }.running = some .init ∧
    State.nextIsEarly { inExecution with inbox := [memRead 0x20] } = false := by
  have h : ∀ b, State.Inv { inExecution with inbox := b } := by
    intro b
    refine ⟨(by decide : Params.wf Params.default = true), rfl, rfl, ?_, ?_, ?_, ?_, trivial⟩
    · intro c hc; cases hc
    · intro c hc; cases hc
    · simp [State.errorFieldsAgree, inExecution, State.reset]
    · intro i hi; cases hi; exact (by decide : State.accepts State.reset .init = true)
  exact ⟨h _, h _, rfl, rfl⟩

/-- The state after `n` steps. -/
def runSteps : Nat → State → State
  | 0, s => s
  | n + 1, s => runSteps n (stateOf s (step s))

theorem reachable_runSteps (n : Nat) (s : State) (h : Reachable s) : Reachable (runSteps n s) := by
  induction n generalizing s with
  | zero => exact h
  | succ n ih =>
    refine ih _ ?_
    cases hs : step s with
    | next t => exact Reachable.step s t h hs
    | fault r => exact h
    | refused r => exact h

/-- `WR MSG[0]; WR LEN, 3; CMD INIT; CMD SHUFFLE; CMD ABSORB1; CMD FROUND` with one round. -/
theorem test_witness_reachable : Reachable (runSteps 4 waiting) ∧ (runSteps 4 waiting).phase = .permuted ∧
    Reachable (runSteps 5 waiting) ∧ (runSteps 5 waiting).phase = .absorbed ∧
    Reachable (runSteps 6 waiting) ∧ (runSteps 6 waiting).phase = .done := by
  have h : Reachable waiting := Reachable.powerUp few waiting.inbox (by decide)
  exact ⟨reachable_runSteps 4 _ h, by decide +kernel, reachable_runSteps 5 _ h, by decide +kernel,
    reachable_runSteps 6 _ h, by decide +kernel⟩

end Sys2Proof.Tests
end

/-! PROOF. No step changes a parameter (00_scope.md R11, R12): each operation a step is made of keeps `par`. -/

namespace Sys2Proof.Machine

open Sys2Proof

/-! The commands. -/

/-- What a command does once the sequencer has accepted it (R180 case 5). -/
def acceptedBody : Instr → State → Host.Outcome State Fault Refusal
  | .nop, s => .next s.complete
  | .init, s => .next s.begin.complete
  | .ksnext, s => .next s.drawKs.complete
  | .shuffle, s => andThen (shuffleBody s) fun s => .next s.complete
  | .mix, s => .next s.mixOperands.complete
  | .absorb1, s => andThen (absorbStep s) fun s => .next s.complete
  | .absorb, s => andThen (absorbBody s) fun s => .next s.complete
  | .fround, s => .next s.finalStep.complete
  | .final, s => .next s.finalize.complete
  | .hash, s => andThen (shuffleBody s.begin) fun s =>
      andThen (absorbBody s) fun s => .next s.finalize.complete
  | .clr, s => .next s.clearError

/-- Every command is its body behind the acceptance. -/
theorem exec_eq_gate (i : Instr) (s : State) : exec i s = gate i s (acceptedBody i) := by
  cases i <;> rfl

/-- A command that answers a next state was ignored, was refused with a recorded error, or ran its body. -/
theorem gate_eq_next {i : Instr} {s t : State} {body : State → Host.Outcome State Fault Refusal}
    (h : gate i s body = .next t) :
    t = s ∨ (∃ e, t = s.raiseError e (encode i)) ∨ (s.accepts i = true ∧ body s = .next t) := by
  rcases gate_cases i s body with ⟨-, -, -, hg⟩ | ⟨-, -, -, hg⟩ | ⟨-, -, -, -, -, hg⟩ | ⟨ha, hg⟩
  all_goals rw [hg] at h
  · cases h; exact .inl rfl
  · cases h; exact .inr (.inl ⟨_, rfl⟩)
  · cases h; exact .inr (.inl ⟨_, rfl⟩)
  · exact .inr (.inr ⟨ha, h⟩)

theorem shuffleBody_keeps_par {s t : State} (h : shuffleBody s = .next t) : t.par = s.par := by
  rw [(shuffleBody_next s t h).2, State.permute_par]

theorem absorbStep_keeps_par {s t : State} (h : absorbStep s = .next t) : t.par = s.par := by
  rw [(absorbStep_next s t h).2.2, State.absorbAt_par]

theorem absorbBody_keeps_par {s t : State} (h : absorbBody s = .next t) : t.par = s.par :=
  (congrArg State.par (absorbLoop_next _ s t h) :)

@[simp] theorem State.finalize_par (s : State) : s.finalize.par = s.par :=
  (congrArg State.par (finalLoop_eq s.roundsLeft s) :)

/-- Two parts of a command that keep the parameters keep them one after the other. -/
theorem andThen_keeps_par {p : Params} {o : Host.Outcome State Fault Refusal}
    {f : State → Host.Outcome State Fault Refusal} {t : State}
    (ho : ∀ u, o = .next u → u.par = p) (hf : ∀ u v, f u = .next v → v.par = u.par)
    (h : andThen o f = .next t) : t.par = p := by
  obtain ⟨u, hu, ht⟩ := (andThen_eq_next o f t).1 h
  rw [hf u t ht, ho u hu]

theorem complete_keeps_par (s t : State) (h : Host.Outcome.next s.complete =
    (.next t : Host.Outcome State Fault Refusal)) : t.par = s.par := by
  cases h; exact State.complete_par s

theorem acceptedBody_keeps_par {i : Instr} {s t : State} (h : acceptedBody i s = .next t) :
    t.par = s.par := by
  cases i with
  | nop | init | ksnext | mix | fround | final | clr => cases h; simp
  | shuffle => exact andThen_keeps_par (fun _ => shuffleBody_keeps_par) complete_keeps_par h
  | absorb1 => exact andThen_keeps_par (fun _ => absorbStep_keeps_par) complete_keeps_par h
  | absorb => exact andThen_keeps_par (fun _ => absorbBody_keeps_par) complete_keeps_par h
  | hash =>
    refine andThen_keeps_par (fun u hu => ?shuffled) (fun u v huv => ?finished) h
    case shuffled => rw [shuffleBody_keeps_par hu, State.begin_par]
    case finished =>
      refine andThen_keeps_par (fun _ => absorbBody_keeps_par) (fun w x hx => ?_) huv
      rw [complete_keeps_par _ x hx, State.finalize_par]

theorem exec_keeps_par {i : Instr} {s t : State} (h : exec i s = .next t) : t.par = s.par := by
  rw [exec_eq_gate] at h
  obtain rfl | ⟨e, rfl⟩ | ⟨-, hbody⟩ := gate_eq_next h
  · rfl
  · exact State.raiseError_par s e (encode i)
  · exact acceptedBody_keeps_par hbody

/-! The host port. -/

theorem issue_keeps_par {s t : State} {cw : Word} (h : issue s cw = .next t) : t.par = s.par := by
  rcases issue_cases s cw with ⟨-, -, hi⟩ | ⟨-, hi⟩ | ⟨i, -, -, -, hi⟩ | ⟨i, -, -, hi⟩
  all_goals rw [hi] at h
  · cases h; rfl
  · cases h; rfl
  · cases h; rfl
  · exact exec_keeps_par h

@[simp] theorem writeRegister_par (s : State) (l : Location) (v : Word) :
    (writeRegister s l v).par = s.par := by
  unfold writeRegister
  cases h : writeLoc s v l with
  | none => rfl
  | some u => exact (congrArg State.par (writeLoc_cases s u v l h).1 :)

@[simp] theorem hostRead_par (s : State) (o : Offset) (n : Nat) : (hostRead s o n).par = s.par := by
  obtain ⟨r, hr⟩ := hostRead_eq s o n
  rw [hr, State.respond_par]

@[simp] theorem busyAccess_par (s : State) (x : Txn) : (busyAccess s x).par = s.par := by
  obtain ⟨r, d, hx⟩ := busyAccess_eq s x
  rw [hx]

/-- A write that answers a next state is a command word, a register write, or a bus error. -/
theorem hostWrite_eq_next {s t : State} {o : Offset} {n : Nat} {v : Word}
    (h : hostWrite s o n v = .next t) :
    issue (s.respond .ok) v = .next t ∨ (∃ l, t = writeRegister s l v) ∨ t = s.respond .error := by
  unfold hostWrite at h
  split at h
  · split at h
    · exact .inl h
    · cases h; exact .inr (.inl ⟨_, rfl⟩)
    · cases h; exact .inr (.inr rfl)
  · cases h; exact .inr (.inr rfl)

theorem hostWrite_keeps_par {s t : State} {o : Offset} {n : Nat} {v : Word}
    (h : hostWrite s o n v = .next t) : t.par = s.par := by
  obtain hissue | ⟨l, rfl⟩ | rfl := hostWrite_eq_next h
  · rw [issue_keeps_par hissue, State.respond_par]
  · exact writeRegister_par s l v
  · exact State.respond_par s .error

theorem serve_keeps_par {s t : State} {e : HostEvent} (h : serve s e = .next t) : t.par = s.par := by
  cases e with
  | reset => cases h; exact State.resetEvent_par s
  | access x =>
    simp only [serve] at h
    split at h
    · cases h; exact busyAccess_par s x
    · cases x with
      | read o n => cases h; exact hostRead_par s o n
      | write o n v => exact hostWrite_keeps_par h

/-! The step. -/

/-- Settles O52: an idle step changes nothing, and the end of a command and the service of a host event keep
the parameters. -/
theorem stepsKeepTheParameters : Obligations.StepsKeepTheParameters := by
  intro s t h
  rcases step_cases s with ⟨-, -, hs⟩ | ⟨i, -, -, hs⟩ | ⟨e, rest, -, -, hs⟩
  all_goals rw [hs] at h
  · cases h; rfl
  · rw [exec_keeps_par h]
  · rw [serve_keeps_par h]

end Sys2Proof.Machine

/-! PROOF. What every step keeps (10_state.md R25, R26, R31, R32, R43; 45_control.md R190). A step is a sequence
of moves, each one named update of the state under the guard the machine has tested (`step_moves`); a property is
kept by every step when every move keeps it. -/

namespace Sys2Proof.Machine

open Sys2Proof

/-! ## The moves of a step -/

/-- One update a step is made of, with what the machine has tested before it. Commands, writes and refusals
happen while no command is in execution (R68, R180). -/
inductive Move : State → State → Prop
  /-- The bookkeeping of the port: inputs taken, responses, busy reads of `STATUS`. -/
  | port (s : State) (inbox : List Input) (resp : Option Response) (draws : Nat) :
      Move s { s with inbox := inbox, resp := resp, draws := draws }
  /-- An accepted command goes into execution (R180 case 5). -/
  | start (s : State) (i : Instr) (ha : s.accepts i = true) : Move s { s with running := some i }
  /-- The command in execution reaches its end. -/
  | finish (s : State) : Move s { s with running := none }
  | reset (s : State) : Move s s.resetEvent
  | write (s t : State) (v : Word) (l : Location) (hr : s.running = none)
      (hl : ∀ w, l = .msg w → w < s.par.msgWords) (h : writeLoc s v l = some t) : Move s t
  | refuse (s : State) (e : ErrCode) (cw : Word) (hr : s.running = none) (he : e ≠ .none) :
      Move s (s.raiseError e cw)
  | complete (s : State) : Move s s.complete
  | begin (s : State) (hr : s.running = none) (hf : s.fits = true) : Move s s.begin
  | drawKs (s : State) (hr : s.running = none) : Move s s.drawKs
  | mixOperands (s : State) (hr : s.running = none) : Move s s.mixOperands
  | permute (s : State) (hr : s.running = none) (hp : s.phase = .ready) (hf : s.fits = true) :
      Move s s.permute
  | absorb (s : State) (hr : s.running = none) (hp : s.phase = .permuted) :
      Move s (s.absorbAt (s.ordWord s.t.toNat))
  | round (s : State) (hr : s.running = none) (hp : s.phase = .absorbed) : Move s s.finalStep
  | clear (s : State) (hr : s.running = none) : Move s s.clearError

/-- Some moves, one after another. -/
abbrev Moves : State → State → Prop := Relation.ReflTransGen Move

/-- A property that every move keeps is kept by any number of moves. -/
theorem Moves.keep {P : State → Prop} (hP : ∀ s t, Move s t → P s → P t) {s t : State}
    (h : Moves s t) (hs : P s) : P t := by
  induction h with
  | refl => exact hs
  | tail _ hm ih => exact hP _ _ hm ih

/-! The moves of the commands. -/

theorem shuffleBody_move {s t : State} (hr : s.running = none) (hp : s.phase = .ready)
    (h : shuffleBody s = .next t) : Move s t := by
  obtain ⟨hf, rfl⟩ := shuffleBody_next s t h
  exact .permute s hr hp hf

theorem absorbStep_move {s t : State} (hr : s.running = none) (hp : s.phase = .permuted)
    (h : absorbStep s = .next t) : Move s t := by
  obtain ⟨-, -, rfl⟩ := absorbStep_next s t h
  exact .absorb s hr hp

theorem absorbLoop_moves {n : Nat} {s t : State} (hr : s.running = none)
    (h : absorbLoop n s = .next t) : Moves s t := by
  induction n generalizing s with
  | zero => cases h; exact .refl
  | succ n ih =>
    rw [absorbLoop] at h
    split at h
    next hp =>
      obtain ⟨u, hu, ht⟩ := (andThen_eq_next _ _ _).1 h
      have hur : u.running = none := by rw [(absorbStep_next s u hu).2.2, State.absorbAt_running, hr]
      exact .head (absorbStep_move hr hp hu) (ih hur ht)
    next => cases h; exact .refl

theorem finalLoop_moves (n : Nat) {s : State} (hr : s.running = none) : Moves s (finalLoop n s) := by
  induction n generalizing s with
  | zero => exact .refl
  | succ n ih =>
    rw [finalLoop]
    split
    next hp => exact .head (.round s hr hp) (ih (s := s.finalStep) hr)
    next => exact .refl

/-- `ABSORB` does not end with another command in execution. -/
theorem absorbBody_running {s t : State} (h : absorbBody s = .next t) : t.running = s.running :=
  (congrArg State.running (absorbLoop_next _ s t h) :)

theorem andThen_complete_moves {o : Host.Outcome State Fault Refusal} {s t : State}
    (ho : ∀ u, o = .next u → Moves s u)
    (h : andThen o (fun u => .next u.complete) = .next t) : Moves s t := by
  obtain ⟨u, hu, ht⟩ := (andThen_eq_next _ _ _).1 h
  cases ht
  exact (ho u hu).tail (.complete u)

theorem hash_moves {s t : State} (hr : s.running = none) (hf : s.fits = true)
    (h : acceptedBody .hash s = .next t) : Moves s t := by
  obtain ⟨u, hu, h⟩ := (andThen_eq_next _ _ _).1 h
  obtain ⟨v, hv, h⟩ := (andThen_eq_next _ _ _).1 h
  cases h
  have hur : u.running = none := by rw [(shuffleBody_next _ u hu).2]; exact hr
  have hvr : v.running = none := by rw [absorbBody_running hv, hur]
  calc Moves s s.begin := .single (.begin s hr hf)
    Moves _ u := .single (shuffleBody_move hr rfl hu)
    Moves _ v := absorbLoop_moves hur hv
    Moves _ v.finalize := finalLoop_moves _ hvr
    Moves _ v.finalize.complete := .single (.complete _)

/-- A command checked for the length of its message and accepted has one that fits (R180 case 4). -/
theorem fits_of_accepts {i : Instr} {s : State} (ha : s.accepts i = true) (hc : checksLength i = true) :
    s.fits = true :=
  decide_eq_true (((accepts_iff i s).1 ha).2.2 hc)

theorem acceptedBody_moves {i : Instr} {s t : State} (hr : s.running = none) (ha : s.accepts i = true)
    (h : acceptedBody i s = .next t) : Moves s t := by
  have hlegal : legalIn i s.phase = true := ((accepts_iff i s).1 ha).2.1
  cases i with
  | nop => cases h; exact .single (.complete s)
  | init => cases h; exact .tail (.single (.begin s hr (fits_of_accepts ha rfl))) (.complete _)
  | ksnext => cases h; exact .tail (.single (.drawKs s hr)) (.complete _)
  | mix => cases h; exact .tail (.single (.mixOperands s hr)) (.complete _)
  | clr => cases h; exact .single (.clear s hr)
  | shuffle =>
    have hp : s.phase = .ready := of_decide_eq_true hlegal
    exact andThen_complete_moves (fun u hu => .single (shuffleBody_move hr hp hu)) h
  | absorb1 =>
    have hp : s.phase = .permuted := of_decide_eq_true hlegal
    exact andThen_complete_moves (fun u hu => .single (absorbStep_move hr hp hu)) h
  | absorb => exact andThen_complete_moves (fun u hu => absorbLoop_moves hr hu) h
  | fround =>
    have hp : s.phase = .absorbed := of_decide_eq_true hlegal
    cases h; exact .tail (.single (.round s hr hp)) (.complete _)
  | final => cases h; exact .tail (finalLoop_moves _ hr) (.complete _)
  | hash => exact hash_moves hr (fits_of_accepts ha rfl) h

theorem exec_moves {i : Instr} {s t : State} (hr : s.running = none) (h : exec i s = .next t) :
    Moves s t := by
  rw [exec_eq_gate] at h
  rcases gate_cases i s (acceptedBody i) with
    ⟨-, -, -, hg⟩ | ⟨-, -, -, hg⟩ | ⟨-, -, -, -, -, hg⟩ | ⟨ha, hg⟩
  all_goals rw [hg] at h
  · cases h; exact .refl
  · cases h; exact .single (.refuse s .seq _ hr (by decide))
  · cases h; exact .single (.refuse s .len _ hr (by decide))
  · exact acceptedBody_moves hr ha h

/-! The moves of the port. -/

theorem respond_move (s : State) (r : Response) : Move s (s.respond r) := .port s s.inbox (some r) s.draws

theorem issue_moves {s t : State} {cw : Word} (hr : s.running = none) (h : issue s cw = .next t) :
    Moves s t := by
  rcases issue_cases s cw with ⟨-, -, hi⟩ | ⟨-, hi⟩ | ⟨i, -, ha, -, hi⟩ | ⟨i, -, -, hi⟩
  all_goals rw [hi] at h
  · cases h; exact .refl
  · cases h; exact .single (.refuse s .opc cw hr (by decide))
  · cases h; exact .single (.start s i ha)
  · exact exec_moves hr h

theorem writeRegister_moves {s : State} (l : Location) (v : Word) (hr : s.running = none)
    (hl : ∀ w, l = .msg w → w < s.par.msgWords) : Moves s (writeRegister s l v) := by
  unfold writeRegister
  cases h : writeLoc s v l with
  | none => exact .single (respond_move s .error)
  | some u => exact .tail (.single (.write s u v l hr hl h)) (respond_move u .ok)

theorem hostWrite_moves {s t : State} {o : Offset} {n : Nat} {v : Word} (hr : s.running = none)
    (h : hostWrite s o n v = .next t) : Moves s t := by
  unfold hostWrite at h
  split at h
  · split at h
    next => exact .head (respond_move s .ok) (issue_moves (s := s.respond .ok) hr h)
    next l _ hl =>
      cases h
      exact writeRegister_moves l v hr fun w hw => locate_msg _ o w (hw ▸ hl)
    next => cases h; exact .single (respond_move s .error)
  · cases h; exact .single (respond_move s .error)

theorem serve_moves {s t : State} {e : HostEvent} (h : serve s e = .next t) : Moves s t := by
  cases e with
  | reset => cases h; exact .single (.reset s)
  | access x =>
    simp only [serve] at h
    split at h
    next =>
      obtain ⟨r, d, hx⟩ := busyAccess_eq s x
      cases h
      rw [hx]
      exact .single (.port s s.inbox (some r) d)
    next hb =>
      have hr : s.running = none := by simpa [State.busy] using hb
      cases x with
      | read o n =>
        obtain ⟨r, hx⟩ := hostRead_eq s o n
        cases h
        rw [hx]
        exact .single (respond_move s r)
      | write o n v => exact hostWrite_moves hr h

/-- Everything a step can do. -/
theorem step_moves {s t : State} (h : step s = .next t) : Moves s t := by
  rcases step_cases s with ⟨-, -, hs⟩ | ⟨i, -, -, hs⟩ | ⟨e, rest, -, -, hs⟩
  all_goals rw [hs] at h
  · cases h; exact .refl
  · exact .head (.finish s) (exec_moves rfl h)
  · exact .head (.port s rest s.resp s.draws) (serve_moves h)

/-! ## The parameters, the memories and the error fields -/

theorem Move.keeps_par {s t : State} (h : Move s t) : t.par = s.par := by
  cases h with
  | write _ v l hr hl h => exact (congrArg State.par (writeLoc_cases s t v l h).1 :)
  | _ => rfl

/-- The two memories have their canonical form and lie inside `MSG_WORDS` words (log 18; 20_memory.md R70). -/
def State.memoriesHold (s : State) : Prop :=
  (Memory.wf s.msg = true ∧ Memory.within s.par.msgWords s.msg) ∧
    (Memory.wf s.ord = true ∧ Memory.within s.par.msgWords s.ord)

/-- What a register write does to `MSG`: nothing, or one word of it is written. -/
theorem writeLoc_msg {s t : State} {v : Word} {l : Location} (h : writeLoc s v l = some t) :
    t.msg = s.msg ∨ ∃ w, l = .msg w ∧ t.msg = Memory.putWord s.msg w v := by
  obtain ⟨-, ⟨-, -, -, hm⟩ | ⟨-, -, hm⟩⟩ := writeLoc_cases s t v l h
  · exact .inl hm
  · exact hm

theorem State.shuffled_length (s : State) : s.shuffled.1.length = s.bcnt.toNat :=
  shuffle_length s.par.arxC s.var s.len

theorem fits_iff (s : State) : s.fits = true ↔ s.bcnt.toNat ≤ s.par.msgWords := by
  simp [State.fits]

theorem Move.keeps_memories {s t : State} (h : Move s t) (hm : s.memoriesHold) : t.memoriesHold := by
  obtain ⟨⟨hmwf, hmin⟩, howf, hoin⟩ := hm
  cases h with
  | reset =>
    have hempty : Memory.within s.par.msgWords [] := by simp [Memory.within]
    exact ⟨⟨rfl, hempty⟩, rfl, hempty⟩
  | permute hr hp hf =>
    have hlen : 0 + s.shuffled.1.length ≤ s.par.msgWords := by
      rw [Nat.zero_add, s.shuffled_length]; exact (fits_iff s).1 hf
    exact ⟨⟨hmwf, hmin⟩, Memory.putIndices_wf _ _ _ howf,
      Memory.within_putIndices _ _ _ _ hlen hoin⟩
  | write _ v l hr hl h =>
    have hord : t.ord = s.ord := (congrArg State.ord (writeLoc_cases s t v l h).1 :)
    have hpar : t.par = s.par := (Move.write s t v l hr hl h).keeps_par
    unfold State.memoriesHold
    rw [hord, hpar]
    obtain hmsg | ⟨w, hw, hmsg⟩ := writeLoc_msg h
    · rw [hmsg]; exact ⟨⟨hmwf, hmin⟩, howf, hoin⟩
    · rw [hmsg]
      exact ⟨⟨Memory.putWord_wf _ _ _ hmwf, Memory.within_putWord _ _ _ _ (hl w hw) hmin⟩, howf, hoin⟩
  | _ => exact ⟨⟨hmwf, hmin⟩, howf, hoin⟩

theorem Move.keeps_errorFieldsAgree {s t : State} (h : Move s t) (hs : s.errorFieldsAgree) :
    t.errorFieldsAgree := by
  cases h with
  | reset | clear => simp [State.errorFieldsAgree]
  | refuse e cw hr he => simp [State.errorFieldsAgree, he]
  | write _ v l hr hl h =>
    rw [(writeLoc_cases s t v l h).1]
    exact hs
  | _ => exact hs

/-- Settles O51: a refusal records a code, `CLR` and reset clear all three fields, and no other move touches
them. -/
theorem stepsKeepErrorFieldsAgreeing : Obligations.StepsKeepErrorFieldsAgreeing := by
  intro s t hs h
  exact (step_moves h).keep (fun _ _ => Move.keeps_errorFieldsAgree) hs

/-! ## The command in execution -/

theorem runningAccepted_of_none {s : State} (hr : s.running = none) : s.runningAccepted := by
  simp [State.runningAccepted, hr]

/-- While a command is in execution only the port's bookkeeping, `IP` and `running` move, and the acceptance looks at
none of the first two. -/
theorem Move.keeps_runningAccepted {s t : State} (h : Move s t) (hs : s.runningAccepted) :
    t.runningAccepted := by
  cases h with
  | port | complete => exact hs
  | start i ha =>
    intro j hj
    cases hj
    exact ha
  | finish | reset => exact runningAccepted_of_none rfl
  | write _ v l hr hl h =>
    have hrun : t.running = s.running := (congrArg State.running (writeLoc_cases s t v l h).1 :)
    exact runningAccepted_of_none (hrun.trans hr)
  | refuse _ _ hr | begin hr | drawKs hr | mixOperands hr | permute hr | absorb hr | round hr
  | clear hr => exact runningAccepted_of_none hr

/-! ## The phase -/

/-- `S` after a further block of the Permutation Order. -/
theorem State.absorbedUpTo_succ (s : State) {k : Nat} (hk : k < s.bcnt.toNat) :
    s.absorbedUpTo (k + 1) =
      absorbBlock (Params.lv s.par) s.var s.msg8 s.len (s.absorbedUpTo k)
        (BitVec.ofNat 64 (s.shuffled.1.getD k 0)) := by
  have hlen : k < s.shuffled.1.length := by rw [s.shuffled_length]; exact hk
  simp only [State.absorbedUpTo, absorbList]
  rw [List.take_succ_eq_append_getElem hlen, List.foldl_append, List.getD_eq_getElem _ _ hlen]
  rfl

/-- `S` after a further round. -/
theorem State.finalizedUpTo_succ (s : State) (r : Nat) :
    s.finalizedUpTo (r + 1) = finalRound (Params.lv s.par) s.var (s.finalizedUpTo r) r := by
  simp only [State.finalizedUpTo, finalRounds, List.range_succ, List.foldl_append, List.foldl]

/-- Before the first round `S` is what the absorption leaves. -/
theorem State.finalizedUpTo_zero (s : State) : s.finalizedUpTo 0 = s.absorbedUpTo s.bcnt.toNat := rfl

theorem State.absorbedUpTo_zero (s : State) : s.absorbedUpTo 0 = s.par.iv := rfl

/-- `R(VAR)` is not 0 and is a 32-bit number (R11). -/
theorem State.rounds_range {s : State} (h : Params.wf s.par = true) :
    0 < s.rounds ∧ s.rounds < 2 ^ 32 := by
  simp only [Params.wf, Bool.and_eq_true, decide_eq_true_eq] at h
  obtain ⟨⟨⟨⟨⟨hA, hA'⟩, hB⟩, hB'⟩, -⟩, -⟩ := h
  unfold State.rounds
  cases s.var
  · exact ⟨hA, hA'⟩
  · exact ⟨hB, hB'⟩

/-- `SHUFFLE` leaves the Permutation Order in `ORD` (R124). -/
theorem State.permute_orderHolds (s : State) : s.permute.orderHolds := by
  intro k hk
  exact State.ordWord_of_putIndices s s.shuffled.1 k (by rw [s.shuffled_length]; exact hk) s.permute rfl

theorem permute_phaseHolds {s : State} (hwf : Params.wf s.par = true) (hp : s.phase = .ready)
    (hs : s.phaseHolds) : s.permute.phaseHolds := by
  simp only [State.phaseHolds, hp] at hs
  obtain ⟨hfits, hsreg, ht, hrnd⟩ := hs
  have hiv : s.permute.sreg = s.permute.absorbedUpTo 0 := hsreg
  by_cases h0 : s.bcnt = 0
  · have hphase : s.permute.phase = .absorbed := s.permute_phase.trans (if_pos h0)
    simp only [State.phaseHolds, hphase]
    refine ⟨hfits, s.permute_orderHolds, ?_, ?_, ?_⟩
    · simp [ht, h0]
    · simpa [hrnd] using (State.rounds_range hwf).1
    · rw [hiv, State.permute_rnd, hrnd]
      simp [State.finalizedUpTo_zero, h0]
  · have hphase : s.permute.phase = .permuted := s.permute_phase.trans (if_neg h0)
    simp only [State.phaseHolds, hphase]
    refine ⟨hfits, s.permute_orderHolds, ?_, hrnd, ?_⟩
    · have hpos : s.bcnt.toNat ≠ 0 := fun h => h0 (BitVec.eq_of_toNat_eq h)
      simpa [ht] using Nat.pos_of_ne_zero hpos
    · rw [hiv, State.permute_t, ht]; rfl

/-- The block `ORD[T]` absorbed is the next one of the Permutation Order (R156). -/
theorem absorb_phaseHolds {s : State} (hwf : Params.wf s.par = true) (hp : s.phase = .permuted)
    (hs : s.phaseHolds) : (s.absorbAt (s.ordWord s.t.toNat)).phaseHolds := by
  simp only [State.phaseHolds, hp] at hs
  obtain ⟨hfits, hord, ht, hrnd, hsreg⟩ := hs
  have hnext : (s.t + 1).toNat = s.t.toNat + 1 := by bv_omega
  have hblock : (s.absorbAt (s.ordWord s.t.toNat)).sreg = s.absorbedUpTo (s.t.toNat + 1) := by
    rw [State.absorbAt_sreg, hord _ ht, s.absorbedUpTo_succ ht, ← hsreg]
  by_cases hlast : s.t + 1 = s.bcnt
  · have hphase : (s.absorbAt (s.ordWord s.t.toNat)).phase = .absorbed :=
      (s.absorbAt_phase _).trans (if_pos hlast)
    simp only [State.phaseHolds, hphase]
    refine ⟨hfits, hord, hlast, ?_, ?_⟩
    · simpa [hrnd] using (State.rounds_range hwf).1
    · rw [hblock, State.absorbAt_rnd, hrnd, ← hnext, hlast]; rfl
  · have hphase : (s.absorbAt (s.ordWord s.t.toNat)).phase = .permuted :=
      (s.absorbAt_phase _).trans ((if_neg hlast).trans hp)
    simp only [State.phaseHolds, hphase]
    refine ⟨hfits, hord, ?_, hrnd, ?_⟩
    · have hne : (s.t + 1).toNat ≠ s.bcnt.toNat := fun h => hlast (BitVec.eq_of_toNat_eq h)
      simp only [State.absorbAt_t, State.absorbAt_bcnt]
      omega
    · rw [hblock, State.absorbAt_t, hnext]; rfl

theorem round_phaseHolds {s : State} (hwf : Params.wf s.par = true) (hp : s.phase = .absorbed)
    (hs : s.phaseHolds) : s.finalStep.phaseHolds := by
  simp only [State.phaseHolds, hp] at hs
  obtain ⟨hfits, hord, ht, hrnd, hsreg⟩ := hs
  have hlt : s.rounds < 2 ^ 32 := (State.rounds_range hwf).2
  have hnext : (s.rnd + 1).toNat = s.rnd.toNat + 1 := by bv_omega
  have hround : s.finalStep.sreg = s.finalizedUpTo (s.rnd.toNat + 1) := by
    rw [State.finalStep_sreg, s.finalizedUpTo_succ, ← hsreg]
  have hlast_iff : s.rnd + 1 = BitVec.ofNat 32 s.rounds ↔ s.rnd.toNat + 1 = s.rounds := by
    rw [← BitVec.toNat_inj, hnext, BitVec.toNat_ofNat, Nat.mod_eq_of_lt hlt]
  by_cases hlast : s.rnd.toNat + 1 = s.rounds
  · have hphase : s.finalStep.phase = .done :=
      s.finalStep_phase.trans (if_pos (hlast_iff.2 hlast))
    simp only [State.phaseHolds, hphase]
    refine ⟨hfits, hord, ht, hnext.trans hlast, ?_⟩
    rw [hround, hlast]; rfl
  · have hphase : s.finalStep.phase = .absorbed :=
      s.finalStep_phase.trans ((if_neg (mt hlast_iff.1 hlast)).trans hp)
    simp only [State.phaseHolds, hphase]
    refine ⟨hfits, hord, ht, ?_, ?_⟩
    · simp only [State.finalStep_rnd, State.finalStep_rounds, hnext]
      omega
    · rw [hround, State.finalStep_rnd, hnext]; rfl

theorem phaseHolds_of_idle {s : State} (hp : s.phase = .idle) : s.phaseHolds := by
  simp [State.phaseHolds, hp]

/-- A register write leaves what the phase speaks of alone, or the phase is IDLE after it (R66). -/
theorem write_phaseHolds {s t : State} {v : Word} {l : Location} (h : writeLoc s v l = some t)
    (hs : s.phaseHolds) : t.phaseHolds := by
  obtain ⟨ht, ⟨hphase, hvar, hlen, hmsg⟩ | ⟨-, hphase, -⟩⟩ := writeLoc_cases s t v l h
  · rw [ht, hphase, hvar, hlen, hmsg]
    exact hs
  · exact phaseHolds_of_idle hphase

theorem Move.keeps_phaseHolds {s t : State} (h : Move s t) (hwf : Params.wf s.par = true)
    (hs : s.phaseHolds) : t.phaseHolds := by
  cases h with
  | reset | clear => exact phaseHolds_of_idle rfl
  | write _ v l hr hl h => exact write_phaseHolds h hs
  | begin hr hf => exact ⟨hf, rfl, rfl, rfl⟩
  | permute hr hp hf => exact permute_phaseHolds hwf hp hs
  | absorb hr hp => exact absorb_phaseHolds hwf hp hs
  | round hr hp => exact round_phaseHolds hwf hp hs
  | port | start | finish | refuse | complete | drawKs | mixOperands => exact hs

/-! ## The invariant -/

theorem Move.keeps_inv {s t : State} (h : Move s t) (hs : s.Inv) : t.Inv := by
  obtain ⟨hwf, hmwf, howf, hmin, hoin, herr, hrun, hphase⟩ := hs
  obtain ⟨⟨hmwf', hmin'⟩, howf', hoin'⟩ := h.keeps_memories ⟨⟨hmwf, hmin⟩, howf, hoin⟩
  exact ⟨h.keeps_par ▸ hwf, hmwf', howf', hmin', hoin', h.keeps_errorFieldsAgree herr,
    h.keeps_runningAccepted hrun, h.keeps_phaseHolds hwf hphase⟩

/-- Settles O54: every move a step is made of keeps the invariant. -/
theorem stepsKeepTheInvariant : Obligations.StepsKeepTheInvariant := by
  intro s t hs h
  exact (step_moves h).keep (fun _ _ => Move.keeps_inv) hs

theorem inv_powerUp {p : Params} (inputs : List Input) (h : Params.wf p = true) :
    (State.powerUp p inputs).Inv := by
  have hempty : Memory.within p.msgWords [] := by simp [Memory.within]
  exact ⟨h, rfl, rfl, hempty, hempty, ⟨fun _ => ⟨rfl, rfl⟩, fun he => nomatch he⟩,
    runningAccepted_of_none rfl, phaseHolds_of_idle rfl⟩

/-- Settles O53: right after reset the memories are empty, no error is recorded, no command is in execution and
the phase is IDLE. -/
theorem invariantHoldsAfterReset : Obligations.InvariantHoldsAfterReset := by
  refine ⟨?_, fun p inputs h => inv_powerUp inputs h⟩
  exact inv_powerUp (p := Params.default) [] (by decide)

/-- Every state of a run meets the invariant. -/
theorem Reachable.inv {s : State} (h : Reachable s) : s.Inv := by
  induction h with
  | powerUp p inputs h => exact inv_powerUp inputs h
  | step s t _ h ih => exact stepsKeepTheInvariant s t ih h

/-! ## The order is a permutation -/

/-- A swap rearranges the entries. -/
theorem swapAt_perm {order : List Nat} {i j : Nat} (hi : i < order.length) (hj : j < order.length) :
    (swapAt order i j).Perm order := by
  unfold swapAt
  rw [List.getD_eq_getElem _ _ hi, List.getD_eq_getElem _ _ hj]
  exact List.set_set_perm hi hj

theorem shuffleLoop_perm (arxC : Vector Half 4) (var : Variant) (i : Nat) (order : List Nat)
    (seed : Word) (hi : i ≤ order.length - 1) :
    (shuffleLoop arxC var i order seed).1.Perm order := by
  induction i generalizing order seed with
  | zero => exact .rfl
  | succ i ih =>
    have hj : (ksNext arxC var seed).1.toNat % (i + 2) < i + 2 := Nat.mod_lt _ (by omega)
    exact (ih _ _ (by rw [swapAt_length]; omega)).trans (swapAt_perm (by omega) (by omega))

/-- The order of a message rearranges its block indices (R125 (a)). -/
theorem State.shuffled_perm (s : State) : s.shuffled.1.Perm (List.range s.bcnt.toNat) :=
  shuffleLoop_perm _ _ _ _ _ (by simp)

/-- Past SHUFFLE the phase says that `ORD` holds the order. -/
theorem orderHolds_of_phase {s : State} (hs : s.phaseHolds)
    (hp : s.phase = .permuted ∨ s.phase = .absorbed ∨ s.phase = .done) : s.orderHolds := by
  obtain hp | hp | hp := hp
  all_goals
    simp only [State.phaseHolds, hp] at hs
    obtain ⟨-, hord, -⟩ := hs
    exact hord

/-- The entries of `ORD`, read as numbers, are the order: a block index fits a word. -/
theorem map_ordWord_eq_shuffled {s : State} (hord : s.orderHolds) :
    ((List.range s.bcnt.toNat).map fun k => (s.ordWord k).toNat) = s.shuffled.1 := by
  refine List.ext_getElem (by simp [s.shuffled_length]) fun k hk hk' => ?_
  have hkb : k < s.bcnt.toNat := by simpa using hk
  have hindex : s.shuffled.1[k] < s.bcnt.toNat :=
    List.mem_range.1 (s.shuffled_perm.subset (List.getElem_mem hk'))
  rw [List.getElem_map, List.getElem_range, hord k hkb, List.getD_eq_getElem _ _ hk',
    BitVec.toNat_ofNat, Nat.mod_eq_of_lt (hindex.trans s.bcnt.isLt)]

/-- Settles O57: in a reachable state `ORD` holds the order, and the order is a permutation. -/
theorem orderIsATruePermutation : Obligations.OrderIsATruePermutation := by
  intro s hreach hp
  obtain ⟨-, -, -, -, -, -, -, hphase⟩ := hreach.inv
  rw [map_ordWord_eq_shuffled (orderHolds_of_phase hphase hp)]
  exact s.shuffled_perm

end Sys2Proof.Machine

/-! PROOF. The registers: the register map (10_state.md R42), the fields of `STATUS` (R25), `BCNT` (R33) and the
values after reset (R44). -/

namespace Sys2Proof.Machine

open Sys2Proof

/-! ## The register map -/

theorem offsetOf_s {j : Nat} (h : j < 8) : (offsetOf (.s j)).toNat = 8 * (0x10 + j) := by
  rw [offsetOf, BitVec.toNat_ofNat]; omega

theorem offsetOf_lv {i : Nat} (h : i < 64) : (offsetOf (.lv i)).toNat = 8 * (0x40 + i) := by
  rw [offsetOf, BitVec.toNat_ofNat]; omega

theorem offsetOf_msg {w : Nat} (h : w < 2 ^ 27) : (offsetOf (.msg w)).toNat = 2 ^ 30 + 8 * w := by
  rw [offsetOf, BitVec.toNat_ofNat]; omega

theorem offsetOf_ord {k : Nat} (h : k < 2 ^ 27) : (offsetOf (.ord k)).toNat = 2 * 2 ^ 30 + 8 * k := by
  rw [offsetOf, BitVec.toNat_ofNat]; omega

/-- A single register stands at its word index in region `00`. -/
theorem registerAt_eq_some {w : Nat} {l : Location} (n : Nat) (h : registerAt w = some l) :
    l.mapped n = true ∧ (offsetOf l).toNat = 8 * w := by
  unfold registerAt at h
  split at h
  all_goals cases h
  all_goals exact ⟨rfl, rfl⟩

/-- The location an offset selects is mapped, and stands at the offset, its low three bits aside. -/
theorem locate_eq_some {n : Nat} {o : Offset} {l : Location} (hn : n ≤ 2 ^ 27)
    (h : locate n o = some l) : l.mapped n = true ∧ (offsetOf l).toNat = 8 * (o.toNat / 8) := by
  unfold locate at h
  dsimp only at h
  split at h
  next hregion =>
    split at h
    next =>
      obtain ⟨hmapped, hoff⟩ := registerAt_eq_some n h
      exact ⟨hmapped, by omega⟩
    next =>
    split at h
    next hw =>
      cases h
      have hj : o.toNat % 2 ^ 30 / 8 - 0x10 < 8 := by omega
      exact ⟨decide_eq_true hj, by rw [offsetOf_s hj]; omega⟩
    next =>
    split at h
    next => cases h
    next =>
    split at h
    next hw =>
      cases h
      have hi : o.toNat % 2 ^ 30 / 8 - 0x40 < 64 := by omega
      exact ⟨decide_eq_true hi, by rw [offsetOf_lv hi]; omega⟩
    next => cases h
  next hregion =>
    split at h
    next hw =>
      cases h
      exact ⟨decide_eq_true hw, by rw [offsetOf_msg (by omega)]; omega⟩
    next => cases h
  next hregion =>
    split at h
    next hw =>
      cases h
      exact ⟨decide_eq_true hw, by rw [offsetOf_ord (by omega)]; omega⟩
    next => cases h
  next => cases h

theorem locate_offsetOf_s {n j : Nat} (h : j < 8) : locate n (offsetOf (.s j)) = some (.s j) := by
  unfold locate
  rw [offsetOf_s h, show 8 * (0x10 + j) / 2 ^ 30 = 0 by omega,
    show 8 * (0x10 + j) % 2 ^ 30 / 8 = 0x10 + j by omega]
  dsimp only
  rw [if_neg (by omega), if_pos (by omega), Nat.add_sub_cancel_left]
  rfl

theorem locate_offsetOf_lv {n i : Nat} (h : i < 64) : locate n (offsetOf (.lv i)) = some (.lv i) := by
  unfold locate
  rw [offsetOf_lv h, show 8 * (0x40 + i) / 2 ^ 30 = 0 by omega,
    show 8 * (0x40 + i) % 2 ^ 30 / 8 = 0x40 + i by omega]
  dsimp only
  rw [if_neg (by omega), if_neg (by omega), if_neg (by omega), if_pos (by omega),
    Nat.add_sub_cancel_left]
  rfl

theorem locate_offsetOf_msg {n w : Nat} (hn : n ≤ 2 ^ 27) (h : w < n) :
    locate n (offsetOf (.msg w)) = some (.msg w) := by
  unfold locate
  rw [offsetOf_msg (by omega), show (2 ^ 30 + 8 * w) / 2 ^ 30 = 1 by omega,
    show (2 ^ 30 + 8 * w) % 2 ^ 30 / 8 = w by omega]
  exact if_pos h

theorem locate_offsetOf_ord {n k : Nat} (hn : n ≤ 2 ^ 27) (h : k < n) :
    locate n (offsetOf (.ord k)) = some (.ord k) := by
  unfold locate
  rw [offsetOf_ord (by omega), show (2 * 2 ^ 30 + 8 * k) / 2 ^ 30 = 2 by omega,
    show (2 * 2 ^ 30 + 8 * k) % 2 ^ 30 / 8 = k by omega]
  exact if_pos h

/-- The map read one way and the other. -/
theorem locate_offsetOf {n : Nat} (hn : n ≤ 2 ^ 27) {l : Location} (h : l.mapped n = true) :
    locate n (offsetOf l) = some l := by
  cases l with
  | s j => exact locate_offsetOf_s (of_decide_eq_true h)
  | lv i => exact locate_offsetOf_lv (of_decide_eq_true h)
  | msg w => exact locate_offsetOf_msg hn (of_decide_eq_true h)
  | ord k => exact locate_offsetOf_ord hn (of_decide_eq_true h)
  | _ => rfl

/-- Settles O28: a mapped location is selected by its own offset, and the location an offset selects stands at that
offset rounded down to a multiple of 8. -/
theorem registerMapIsOneToOne : Obligations.RegisterMapIsOneToOne := by
  refine fun n hn => ⟨fun l hl => ?_, fun o l ho h => ?_⟩
  · have hloc : locate n (offsetOf l) = some l := locate_offsetOf hn hl
    obtain ⟨-, hoff⟩ := locate_eq_some hn hloc
    exact ⟨hloc, by omega⟩
  · obtain ⟨hmapped, hoff⟩ := locate_eq_some hn h
    exact ⟨hmapped, BitVec.eq_of_toNat_eq (by omega)⟩

/-! ## The status word and the block count -/

/-- Every bit of `STATUS`, by the field it falls in (R25). -/
theorem getLsbD_status (s : State) (i : Nat) :
    s.status.getLsbD i =
      if i < 1 then s.busy
      else if i < 2 then s.doneBit
      else if i < 3 then s.err
      else if i < 4 then s.ip
      else if i < 7 then s.phase.code.getLsbD (i - 4)
      else if i < 8 then false
      else if i < 16 then s.errc.code.getLsbD (i - 8)
      else false := by
  have hzero (w k : Nat) : (0 : BitVec w).getLsbD k = false := BitVec.getLsbD_zero
  have hsub (a b : Nat) (hb : 0 < b) : i - a < b ↔ i < a + b := by omega
  simp only [State.status, BitVec.getLsbD_append, BitVec.getLsbD_ofBool, hzero, Nat.sub_sub, hsub,
    Nat.zero_lt_succ]
  split_ifs
  all_goals grind

/-- Settles O30, bit by bit. -/
theorem statusFieldsInPlace : Obligations.StatusFieldsInPlace := by
  intro s
  simp only [getLsbD_status, State.doneBit]
  refine ⟨rfl, rfl, rfl, rfl, ?_, rfl, ?_, ?_⟩
  all_goals
    refine BitVec.eq_of_getLsbD_eq fun i hi => ?_
    rw [BitVec.getLsbD_extractLsb', getLsbD_status]
    grind

/-- `BCNT` as the quotient rounded up (R14). -/
theorem toNat_ceilDiv8 (a : Word) : (ceilDiv8 a).toNat = (a.toNat + 7) / 8 := by
  have hshift : (a >>> 3).toNat = a.toNat / 8 := by simp [Nat.shiftRight_eq_div_pow]
  unfold ceilDiv8
  split
  · bv_omega
  · bv_omega

/-- Settles O34. -/
theorem bcntIsTheCeiling : Obligations.BcntIsTheCeiling := by
  intro s
  have hceil : s.bcnt.toNat = (s.len.toNat + 7) / 8 := toNat_ceilDiv8 s.len
  exact ⟨hceil, by have := s.len.isLt; omega⟩

/-! ## Reset -/

theorem readS_zeros (j : Nat) : readS #v[0, 0, 0, 0, 0, 0, 0, 0] j = 0 := by
  rw [readS_mod]
  have hj : j % 8 < 8 := Nat.mod_lt _ (by decide)
  interval_cases j % 8 <;> rfl

/-- Settles O27: a reset event gives the registers the values they have in the state after reset. -/
theorem resetStateMatchesTheTable : Obligations.ResetStateMatchesTheTable := by
  refine ⟨?_, State.resetEvent_par⟩
  rintro r (rfl | ⟨s, rfl⟩)
  all_goals
    exact ⟨fun j _ => readS_zeros j, rfl, rfl, rfl, rfl, rfl, rfl, rfl, rfl, rfl, rfl, rfl, rfl, rfl, rfl,
      rfl, rfl, fun _ => rfl, fun _ => rfl⟩

end Sys2Proof.Machine

/-! PROOF. The memory map and the host port (20_memory.md): reads (R64), plain writes (R65), the locked class (R66),
bus errors (R67), the port while `BUSY = 1` (R68), and that the machine always steps on (R70; 70_reset_and_hazards.md
R236). -/

namespace Sys2Proof.Machine

open Sys2Proof

/-! ## One transaction while no command is in execution -/

/-- With no command in execution the next step serves the waiting transaction. -/
theorem step_withAccess {s : State} (hr : s.running = none) (x : Txn) :
    step (s.withAccess x) = serve { s with inbox := [] } (.access x) := by
  simp [step, advance, State.withAccess, State.busy, hr]

theorem step_withAccess_read {s : State} (hr : s.running = none) (o : Offset) (n : Nat) :
    step (s.withAccess (.read o n)) = .next (hostRead { s with inbox := [] } o n) := by
  rw [step_withAccess hr]
  simp [serve, State.busy, hr]

theorem step_withAccess_write {s : State} (hr : s.running = none) (o : Offset) (n : Nat) (v : Word) :
    step (s.withAccess (.write o n v)) = hostWrite { s with inbox := [] } o n v := by
  rw [step_withAccess hr]
  simp [serve, State.busy, hr]

theorem Txn.wf_read_iff (o : Offset) (n : Nat) :
    Txn.wf (.read o n) = true ↔ n = 8 ∧ o.toNat % 8 = 0 := by
  simp [Txn.wf]

theorem Txn.wf_write_iff (o : Offset) (n : Nat) (v : Word) :
    Txn.wf (.write o n v) = true ↔ n = 8 ∧ o.toNat % 8 = 0 := by
  simp [Txn.wf]

/-- No location holds the host inputs still to come. -/
theorem readLoc_withInbox (s : State) (b : List Input) (l : Location) :
    readLoc { s with inbox := b } l = readLoc s l := by
  cases l <;> rfl

/-- A register write neither reads nor changes the host inputs still to come. -/
theorem writeLoc_withInbox (s : State) (b : List Input) (v : Word) (l : Location) :
    writeLoc { s with inbox := b } v l = (writeLoc s v l).map fun t => { t with inbox := b } := by
  have hopen : ({ s with inbox := b } : State).unlocked = s.unlocked := rfl
  cases l with
  | cfg | len | msg =>
    simp only [writeLoc, hopen]
    split
    · rfl
    · rfl
  | _ => rfl

/-- R64: a read of a mapped location answers its value. -/
theorem servesTo_read {s : State} {o : Offset} {l : Location} (hr : s.running = none)
    (ho : o.toNat % 8 = 0) (hl : locate s.par.msgWords o = some l) :
    s.servesTo (.read o 8) (.data (readLoc s l)) s := by
  have hwf : Txn.wf (.read o 8) = true := (Txn.wf_read_iff o 8).2 ⟨rfl, ho⟩
  simp [State.servesTo, step_withAccess_read hr, hostRead, hwf, hl, readLoc_withInbox, State.respond]

/-- R61, R67: a read that is not well formed, or whose offset is not mapped, is a bus error. -/
theorem servesTo_read_error {s : State} {o : Offset} {n : Nat} (hr : s.running = none)
    (h : n = 8 → o.toNat % 8 = 0 → locate s.par.msgWords o = none) :
    s.servesTo (.read o n) .error s := by
  by_cases hwf : Txn.wf (.read o n) = true
  · obtain ⟨hn, ho⟩ := (Txn.wf_read_iff o n).1 hwf
    simp [State.servesTo, step_withAccess_read hr, hostRead, h hn ho, State.respond]
  · simp [State.servesTo, step_withAccess_read hr, hostRead, hwf, State.respond]

/-- A well-formed write to a location that is not `CMD` is a register write. -/
theorem hostWrite_eq_writeRegister {s : State} {o : Offset} {l : Location} (v : Word)
    (ho : o.toNat % 8 = 0) (hl : locate s.par.msgWords o = some l) (hcmd : l ≠ .cmd) :
    hostWrite s o 8 v = .next (writeRegister s l v) := by
  have hwf : Txn.wf (.write o 8 v) = true := (Txn.wf_write_iff o 8 v).2 ⟨rfl, ho⟩
  rw [hostWrite, if_pos hwf, hl]
  cases l with
  | cmd => exact absurd rfl hcmd
  | _ => rfl

/-- R65, R66: a write the location takes is answered `ok`. -/
theorem servesTo_write {s t : State} {o : Offset} {v : Word} {l : Location} (hr : s.running = none)
    (ho : o.toNat % 8 = 0) (hl : locate s.par.msgWords o = some l) (hcmd : l ≠ .cmd)
    (hw : writeLoc s v l = some t) : s.servesTo (.write o 8 v) .ok t := by
  rw [State.servesTo, step_withAccess_write hr,
    hostWrite_eq_writeRegister (s := { s with inbox := [] }) v ho hl hcmd]
  simp [writeRegister, writeLoc_withInbox, hw, State.respond]

/-- R61, R67: a write that is not well formed, or whose offset no writable location has, is a bus error. -/
theorem servesTo_write_error {s : State} {o : Offset} {n : Nat} {v : Word} (hr : s.running = none)
    (h : n = 8 → o.toNat % 8 = 0 → ∀ l, locate s.par.msgWords o = some l →
      l ≠ .cmd ∧ writeLoc s v l = none) :
    s.servesTo (.write o n v) .error s := by
  rw [State.servesTo, step_withAccess_write hr]
  by_cases hwf : Txn.wf (.write o n v) = true
  · obtain ⟨rfl, ho⟩ := (Txn.wf_write_iff o n v).1 hwf
    cases hl : locate s.par.msgWords o with
    | none => simp [hostWrite, hl, State.respond]
    | some l =>
      obtain ⟨hcmd, hw⟩ := h rfl ho l hl
      rw [hostWrite_eq_writeRegister (s := { s with inbox := [] }) v ho hl hcmd]
      simp [writeRegister, writeLoc_withInbox, hw, State.respond]
  · simp [hostWrite, hwf, State.respond]

/-! ## Reads and plain writes -/

/-- A mapped location is read at its own offset. -/
theorem servesTo_read_offsetOf {s : State} (hr : s.running = none) (hn : s.par.msgWords ≤ 2 ^ 27)
    {l : Location} (hl : l.mapped s.par.msgWords = true) :
    s.servesTo (.read (offsetOf l) 8) (.data (readLoc s l)) s := by
  obtain ⟨hmap, -⟩ := registerMapIsOneToOne s.par.msgWords hn
  obtain ⟨hloc, haligned⟩ := hmap l hl
  exact servesTo_read hr haligned hloc

theorem readLoc_ctrl (s : State) : readLoc s .ctrl = if s.ie then 1 else 0 := by
  rw [readLoc]; cases s.ie <;> rfl

theorem readLoc_cfg (s : State) : readLoc s .cfg = if s.var = .B then 1 else 0 := by
  rw [readLoc]; cases s.var <;> rfl

theorem readLoc_rnd (s : State) : readLoc s .rnd = BitVec.ofNat 64 s.rnd.toNat :=
  (BitVec.ofNat_toNat 64 s.rnd).symm

theorem readLoc_bcnt (s : State) : readLoc s .bcnt = BitVec.ofNat 64 ((s.len.toNat + 7) / 8) := by
  rw [← toNat_ceilDiv8, BitVec.ofNat_toNat, BitVec.setWidth_eq]; rfl

/-- Settles O29: every location is read at its own offset, and the value is the one R64 and R131 give. -/
theorem hostReadsReturnTheRegisters : Obligations.HostReadsReturnTheRegisters := by
  intro s hr hn
  have hread (l : Location) (hl : l.mapped s.par.msgWords = true) :
      s.servesTo (.read (offsetOf l) 8) (.data (readLoc s l)) s := servesTo_read_offsetOf hr hn hl
  refine ⟨hread .id rfl, hread .cap rfl, ?ctrl, ?cfg, hread .status rfl, hread .errinfo rfl, hread .cmd rfl,
    hread .len rfl, hread .ks rfl, hread .ksout rfl, hread .mxx rfl, hread .mxrp rfl, hread .mxout rfl,
    hread .t rfl, ?rnd, ?bcnt, fun j hj => hread (.s j) (decide_eq_true hj),
    fun i hi => hread (.lv i) (decide_eq_true hi), fun w hw => hread (.msg w) (decide_eq_true hw),
    fun k hk => hread (.ord k) (decide_eq_true hk)⟩
  case ctrl => rw [← readLoc_ctrl]; exact hread .ctrl rfl
  case cfg => rw [← readLoc_cfg]; exact hread .cfg rfl
  case rnd => rw [← readLoc_rnd]; exact hread .rnd rfl
  case bcnt => rw [← readLoc_bcnt]; exact hread .bcnt rfl

/-- R25: a written bit 3 of `STATUS` clears `IP`. -/
theorem writeLoc_status (s : State) (v : Word) :
    writeLoc s v .status = some { s with ip := if v.getLsbD 3 then false else s.ip } := by
  rw [writeLoc]; cases v.getLsbD 3 <;> simp

/-- Settles O31: the plain registers are writable in every phase, each at its own offset. -/
theorem plainWritesStore : Obligations.PlainWritesStore := by
  intro s v hr
  have hwrite {o : Offset} {l : Location} {t : State} := servesTo_write (o := o) (l := l) (t := t) (v := v) hr
  exact ⟨hwrite (l := .ctrl) rfl rfl nofun rfl, hwrite (l := .ks) rfl rfl nofun rfl,
    hwrite (l := .mxx) rfl rfl nofun rfl, hwrite (l := .mxrp) rfl rfl nofun rfl,
    hwrite (l := .status) rfl rfl nofun (writeLoc_status s v)⟩

/-! ## The locked class -/

theorem unlocked_iff (s : State) : s.unlocked = true ↔ s.phase = .idle ∨ s.phase = .done := by
  simp [State.unlocked]

theorem unlocked_eq_false {s : State}
    (hp : s.phase = .ready ∨ s.phase = .permuted ∨ s.phase = .absorbed) : s.unlocked = false := by
  obtain hp | hp | hp := hp
  all_goals simp [State.unlocked, hp]

/-- The locked class: `CFG`, `LEN` and `MSG` (R66). -/
def Location.locked : Location → Bool
  | .cfg | .len | .msg _ => true
  | .id | .cap | .ctrl | .status | .errinfo | .cmd | .ks | .ksout | .mxx | .mxrp | .mxout | .t | .rnd
  | .bcnt | .s _ | .lv _ | .ord _ => false

/-- In a locked phase no location of the locked class takes a write. -/
theorem writeLoc_locked {s : State} {l : Location} (v : Word) (hl : l.locked = true)
    (hp : s.phase = .ready ∨ s.phase = .permuted ∨ s.phase = .absorbed) :
    l ≠ .cmd ∧ writeLoc s v l = none := by
  have hu : s.unlocked = false := unlocked_eq_false hp
  cases l with
  | cfg | len | msg => simp [writeLoc, hu]
  | _ => cases hl

/-- Settles O32: a locked phase refuses each location of the class; in the others each takes its write, and of `MSG`
only the bytes of the one word are written. -/
theorem lockedClassWrites : Obligations.LockedClassWrites := by
  intro s v w hr hw hn
  obtain ⟨hmap, -⟩ := registerMapIsOneToOne s.par.msgWords hn
  obtain ⟨hloc, haligned⟩ := hmap (.msg w) (decide_eq_true hw)
  refine ⟨fun hp => ?locked, fun hp => ?unlocked⟩
  case locked =>
    have hrefuse {o : Offset} (l : Location) (hl : l.locked = true)
        (ho : locate s.par.msgWords o = some l) : s.servesTo (.write o 8 v) .error s :=
      servesTo_write_error hr fun _ _ l' hl' => by
        cases ho.symm.trans hl'
        exact writeLoc_locked v hl hp
    exact ⟨hrefuse .len rfl rfl, hrefuse .cfg rfl rfl, hrefuse (.msg w) rfl hloc⟩
  case unlocked =>
    have hu : s.unlocked = true := (unlocked_iff s).2 hp
    have hvar : variantOfBit (v.getLsbD 0) = if v.getLsbD 0 then .B else .A := by
      cases v.getLsbD 0 <;> rfl
    refine ⟨servesTo_write (l := .len) hr rfl rfl nofun (if_pos hu), ?cfg,
      { s with msg := Memory.putWord s.msg w v, phase := .idle },
      servesTo_write (l := .msg w) hr haligned hloc nofun (if_pos hu), rfl, ?word, fun a ha => ?bytes⟩
    case cfg => rw [← hvar]; exact servesTo_write (l := .cfg) hr rfl rfl nofun (if_pos hu)
    case word => 
      rw [State.msgWord_of_putWord s w w v { s with msg := Memory.putWord s.msg w v, phase := .idle } rfl rfl,
        if_pos rfl]
    case bytes => rw [Memory.byte?_putWord, if_neg ha]

/-! ## Bus errors -/

/-- The regions of the map (R42): where an offset stands that selects a location, and which kind it selects. -/
theorem locate_regions {n : Nat} {o : Offset} {l : Location} (h : locate n o = some l) :
    (o.toNat < 0x80 ∧ registerAt (o.toNat / 8) = some l) ∨
    ((0x80 ≤ o.toNat ∧ o.toNat < 0xC0) ∧ ∃ j, l = .s j) ∨
    ((0x200 ≤ o.toNat ∧ o.toNat < 0x400) ∧ ∃ i, l = .lv i) ∨
    ((0x40000000 ≤ o.toNat ∧ o.toNat < 0x80000000) ∧ o.toNat < 0x40000000 + 8 * n ∧ ∃ w, l = .msg w) ∨
    ((0x80000000 ≤ o.toNat ∧ o.toNat < 0xC0000000) ∧ o.toNat < 0x80000000 + 8 * n ∧ ∃ k, l = .ord k) := by
  unfold locate at h
  dsimp only at h
  split at h
  next hregion =>
    split at h
    next =>
      rw [show o.toNat % 2 ^ 30 / 8 = o.toNat / 8 by omega] at h
      exact .inl ⟨by omega, h⟩
    next =>
    split at h
    next => cases h; exact .inr (.inl ⟨by omega, _, rfl⟩)
    next =>
    split at h
    next => cases h
    next =>
    split at h
    next => cases h; exact .inr (.inr (.inl ⟨by omega, _, rfl⟩))
    next => cases h
  next hregion =>
    split at h
    next => cases h; exact .inr (.inr (.inr (.inl ⟨by omega, by omega, _, rfl⟩)))
    next => cases h
  next hregion =>
    split at h
    next => cases h; exact .inr (.inr (.inr (.inr ⟨by omega, by omega, _, rfl⟩)))
    next => cases h
  next => cases h

/-- R67 (b): the holes of the map. -/
theorem locate_eq_none {n : Nat} {o : Offset}
    (ho : (0xC0 ≤ o.toNat ∧ o.toNat < 0x200) ∨ (0x400 ≤ o.toNat ∧ o.toNat < 0x40000000) ∨
      (0x40000000 + 8 * n ≤ o.toNat ∧ o.toNat < 0x80000000) ∨
      (0x80000000 + 8 * n ≤ o.toNat ∧ o.toNat < 0xC0000000) ∨ 0xC0000000 ≤ o.toNat) :
    locate n o = none := by
  refine Option.eq_none_iff_forall_ne_some.2 fun l hl => ?_
  obtain ⟨h, -⟩ | ⟨h, -⟩ | ⟨h, -⟩ | ⟨h, h', -⟩ | ⟨h, h', -⟩ := locate_regions hl
  all_goals omega

/-- R67 (c): a read-only offset selects a location that takes no write in any phase. -/
theorem writeLoc_readOnly {n : Nat} {o : Offset} {l : Location} (s : State) (v : Word)
    (hl : locate n o = some l)
    (ho : o.toNat ∈ [0x00, 0x08, 0x28, 0x48, 0x60, 0x68, 0x70, 0x78] ∨
      (0x80 ≤ o.toNat ∧ o.toNat < 0xC0) ∨ (0x200 ≤ o.toNat ∧ o.toNat < 0x400) ∨
      (0x80000000 ≤ o.toNat ∧ o.toNat < 0xC0000000)) :
    l ≠ .cmd ∧ writeLoc s v l = none := by
  simp only [List.mem_cons, List.not_mem_nil, or_false] at ho
  obtain ⟨h, hreg⟩ | ⟨h, j, rfl⟩ | ⟨h, i, rfl⟩ | ⟨h, -, w, rfl⟩ | ⟨h, -, k, rfl⟩ := locate_regions hl
  · have hlist : o.toNat = 0x00 ∨ o.toNat = 0x08 ∨ o.toNat = 0x28 ∨ o.toNat = 0x48 ∨ o.toNat = 0x60 ∨
        o.toNat = 0x68 ∨ o.toNat = 0x70 ∨ o.toNat = 0x78 := by omega
    obtain ho | ho | ho | ho | ho | ho | ho | ho := hlist
    all_goals
      rw [ho] at hreg
      cases hreg
      exact ⟨nofun, rfl⟩
  · exact ⟨nofun, rfl⟩
  · exact ⟨nofun, rfl⟩
  · omega
  · exact ⟨nofun, rfl⟩

/-- The offsets of the locked class (R66) select locations of the class. -/
theorem locked_of_locate {n : Nat} {o : Offset} {l : Location} (hl : locate n o = some l)
    (ho : o.toNat ∈ [0x18, 0x38] ∨ (0x40000000 ≤ o.toNat ∧ o.toNat < 0x80000000)) : l.locked = true := by
  simp only [List.mem_cons, List.not_mem_nil, or_false] at ho
  obtain ⟨h, hreg⟩ | ⟨h, j, rfl⟩ | ⟨h, i, rfl⟩ | ⟨h, -, w, rfl⟩ | ⟨h, -, k, rfl⟩ := locate_regions hl
  · have hlist : o.toNat = 0x18 ∨ o.toNat = 0x38 := by omega
    obtain ho | ho := hlist
    all_goals
      rw [ho] at hreg
      cases hreg
      rfl
  · omega
  · omega
  · rfl
  · omega

/-! ## The port while a command is in execution -/

/-- An early transaction meets the command in execution (R68). -/
theorem step_of_early_access {s : State} {i : Instr} {x : Txn} {rest : List Input}
    (hr : s.running = some i) (hi : s.inbox = { event := .access x, early := true } :: rest) :
    step s = .next (busyAccess { s with inbox := rest } x) := by
  simp [step, advance, serve, State.busy, hr, hi]

theorem busyAccess_of_ne (s : State) {x : Txn} (hx : x ≠ .read 0x20 8) :
    busyAccess s x = s.respond .error := by
  cases x with
  | write o n v => rfl
  | read o n =>
    refine if_neg fun h => hx ?_
    obtain ⟨rfl, rfl⟩ := h
    rfl

theorem busyStatus_getLsbD_zero (draw : Nat) : (busyStatus draw).getLsbD 0 = true := by
  rw [busyStatus, BitVec.getLsbD_append]; rfl

/-- Settles O23: the two arms of a transaction while `BUSY = 1`. -/
theorem busyRefusesAllButStatusReads : Obligations.BusyRefusesAllButStatusReads := by
  intro s i x rest hr hi
  rw [step_of_early_access hr hi]
  refine ⟨fun hx => ?status, fun hx => ?other⟩
  case status =>
    subst hx
    exact ⟨busyStatus s.draws, busyStatus_getLsbD_zero s.draws, rfl⟩
  case other => rw [busyAccess_of_ne _ hx]; rfl

/-- Settles O33, cause by cause. -/
theorem busErrorsChangeNothing : Obligations.BusErrorsChangeNothing := by
  refine fun s => ⟨fun hr o n v => ⟨fun ho => ?unmapped, fun ho => ?readOnly, fun hp ho => ?locked⟩,
    fun i x rest hr hi hx => ?busy⟩
  case unmapped =>
    have hnone (hn : n = 8) (ha : o.toNat % 8 = 0) : locate s.par.msgWords o = none :=
      locate_eq_none (by omega)
    refine ⟨servesTo_read_error hr hnone, servesTo_write_error hr fun hn ha l hl => ?_⟩
    rw [hnone hn ha] at hl
    cases hl
  case readOnly => exact servesTo_write_error hr fun _ _ l hl => writeLoc_readOnly s v hl ho
  case locked =>
    exact servesTo_write_error hr fun _ _ l hl => writeLoc_locked v (locked_of_locate hl ho) hp
  case busy => rw [step_of_early_access hr hi, busyAccess_of_ne _ hx]; rfl

/-! ## Commands and the port do not meet

The fields of the port are the command in execution, the inputs to come, the last response and the count of busy
reads. A command neither reads nor writes them, which one lemma says (`exec_withPort`): on the same state with another
port it does the same and leaves that port. -/

/-- `s` with the port of `p`. -/
def State.withPort (s p : State) : State :=
  { s with running := p.running, inbox := p.inbox, resp := p.resp, draws := p.draws }

@[simp] theorem State.withPort_phase (s p : State) : (s.withPort p).phase = s.phase := rfl

@[simp] theorem State.withPort_self (s : State) : s.withPort s = s := rfl

/-- The operation does the same whatever the port holds, and leaves the port alone. -/
def PortBlind (f : State → Host.Outcome State Fault Refusal) : Prop :=
  ∀ s t p : State, f s = .next t → f (s.withPort p) = .next (t.withPort p)

theorem PortBlind.andThen {f g : State → Host.Outcome State Fault Refusal} (hf : PortBlind f)
    (hg : PortBlind g) : PortBlind fun s => andThen (f s) g := by
  intro s t p h
  obtain ⟨u, hu, ht⟩ := (andThen_eq_next _ _ _).1 h
  exact (andThen_eq_next _ _ _).2 ⟨u.withPort p, hf s u p hu, hg u t p ht⟩

/-- An update of the state that commutes with the choice of the port. -/
theorem portBlind_next {f : State → State} (hf : ∀ s p : State, f (s.withPort p) = (f s).withPort p) :
    PortBlind fun s => .next (f s) := by
  intro s t p h
  cases h
  exact congrArg _ (hf s p)

theorem portBlind_complete : PortBlind fun s => .next s.complete := portBlind_next fun _ _ => rfl

theorem portBlind_shuffleBody : PortBlind shuffleBody := by
  intro s t p h
  obtain ⟨hf, rfl⟩ := shuffleBody_next s t h
  exact if_pos hf

theorem absorbStep_eq {s : State} (ht : s.t.toNat < s.par.msgWords)
    (hw : (s.ordWord s.t.toNat).toNat < s.par.msgWords) :
    absorbStep s = .next (s.absorbAt (s.ordWord s.t.toNat)) := by
  rw [absorbStep, if_pos ht, if_pos hw]

theorem portBlind_absorbStep : PortBlind absorbStep := by
  intro s t p h
  obtain ⟨ht, hw, rfl⟩ := absorbStep_next s t h
  exact absorbStep_eq (s := s.withPort p) ht hw

theorem portBlind_absorbLoop (n : Nat) : PortBlind (absorbLoop n) := by
  induction n with
  | zero => exact portBlind_next (f := id) fun _ _ => rfl
  | succ n ih =>
    intro s t p h
    rw [absorbLoop] at h ⊢
    rw [State.withPort_phase]
    split at h
    next hp => rw [if_pos hp]; exact portBlind_absorbStep.andThen ih s t p h
    next hp => cases h; exact if_neg hp

theorem portBlind_absorbBody : PortBlind absorbBody :=
  fun s => portBlind_absorbLoop (s.par.msgWords + 1) s

theorem finalLoop_withPort (n : Nat) (s p : State) :
    finalLoop n (s.withPort p) = (finalLoop n s).withPort p := by
  induction n generalizing s with
  | zero => rfl
  | succ n ih =>
    rw [finalLoop, finalLoop, State.withPort_phase]
    split
    next => exact ih s.finalStep
    next => rfl

theorem portBlind_finalize : PortBlind fun s => .next s.finalize.complete :=
  portBlind_next fun s p => congrArg State.complete (finalLoop_withPort s.roundsLeft s p)

theorem portBlind_acceptedBody (i : Instr) : PortBlind (acceptedBody i) := by
  cases i with
  | nop | init | ksnext | mix | fround | clr => exact portBlind_next fun _ _ => rfl
  | shuffle => exact portBlind_shuffleBody.andThen portBlind_complete
  | absorb1 => exact portBlind_absorbStep.andThen portBlind_complete
  | absorb => exact portBlind_absorbBody.andThen portBlind_complete
  | final => exact portBlind_finalize
  | hash =>
    intro s t p h
    exact portBlind_shuffleBody.andThen (portBlind_absorbBody.andThen portBlind_finalize) s.begin t p h

/-- The acceptance does not look at the port (R180). -/
theorem gate_withPort (i : Instr) (s p : State) (body : State → Host.Outcome State Fault Refusal) :
    gate i (s.withPort p) body =
      if s.ignores i then .next (s.withPort p)
      else if !legalIn i s.phase then .next ((s.raiseError .seq (encode i)).withPort p)
      else if checksLength i && !s.fits then .next ((s.raiseError .len (encode i)).withPort p)
      else body (s.withPort p) := rfl

theorem portBlind_gate (i : Instr) {body : State → Host.Outcome State Fault Refusal} (hb : PortBlind body) :
    PortBlind fun s => gate i s body := by
  intro s t p h
  beta_reduce at h ⊢
  rw [gate_withPort]
  unfold gate at h
  split_ifs at h ⊢
  · cases h; rfl
  · cases h; rfl
  · cases h; rfl
  · exact hb s t p h

theorem exec_withPort {i : Instr} {s t : State} (p : State) (h : exec i s = .next t) :
    exec i (s.withPort p) = .next (t.withPort p) := by
  rw [exec_eq_gate] at h ⊢
  exact portBlind_gate i (portBlind_acceptedBody i) s t p h

/-- A command leaves the port as it is. -/
theorem exec_keeps_port {i : Instr} {s t : State} (h : exec i s = .next t) : t.withPort s = t := by
  have hself := exec_withPort s h
  rw [State.withPort_self, h] at hself
  injection hself with ht
  exact ht.symm

theorem exec_keeps_running {i : Instr} {s t : State} (h : exec i s = .next t) : t.running = s.running :=
  (congrArg State.running (exec_keeps_port h).symm :)

/-- The transactions of a list, each of which reaches the port before the end of the command in execution. -/
def earlyAccesses (xs : List Txn) : List Input := xs.map fun x => { event := .access x, early := true }

/-- Early transactions move only the port's response and its count of busy reads (R68). -/
theorem stepTimes_earlyAccesses {s : State} {i : Instr} (xs : List Txn) (hr : s.running = some i)
    (hi : s.inbox = earlyAccesses xs) :
    ∃ r d, stepTimes xs.length s = .next { s with inbox := [], resp := r, draws := d } := by
  induction xs generalizing s with
  | nil =>
    have hempty : s.inbox = [] := hi
    exact ⟨s.resp, s.draws, by rw [← hempty]; rfl⟩
  | cons x xs ih =>
    obtain ⟨r, d, hbusy⟩ := busyAccess_eq { s with inbox := earlyAccesses xs } x
    have hstep : step s = .next { s with inbox := earlyAccesses xs, resp := some r, draws := d } := by
      rw [step_of_early_access hr hi]; exact congrArg _ hbusy
    obtain ⟨r', d', hrest⟩ :=
      ih (s := { s with inbox := earlyAccesses xs, resp := some r, draws := d }) hr rfl
    exact ⟨r', d', by rw [List.length_cons, stepTimes, hstep, andThen_next, hrest]⟩

/-- Without an early input the command in execution reaches its end in the next step (R180 case 5). -/
theorem step_of_last {s : State} {i : Instr} (hr : s.running = some i) (he : s.nextIsEarly = false) :
    step s = exec i { s with running := none } := by
  obtain ⟨hnone, -⟩ | ⟨j, hj, -, hs⟩ | ⟨e, rest, hi, hearly, -⟩ := step_cases s
  · rw [hr] at hnone; cases hnone
  · rw [hr] at hj; cases hj; exact hs
  · simp only [State.nextIsEarly, hi] at he
    simp [hr, he] at hearly

theorem stepTimes_one (s : State) : stepTimes 1 s = step s := by
  rw [stepTimes]
  cases step s with
  | next | fault | refused => rfl

/-- `n` steps and one more. -/
theorem stepTimes_succ {n : Nat} {s t : State} (h : stepTimes n s = .next t) :
    stepTimes (n + 1) s = step t := by
  induction n generalizing s with
  | zero => cases h; exact stepTimes_one _
  | succ n ih =>
    rw [stepTimes] at h
    obtain ⟨u, hu, ht⟩ := (andThen_eq_next _ _ _).1 h
    rw [stepTimes, hu, andThen_next, ih ht]

/-- Settles O24: the window moves only the port, and the command at its end does not see the port. -/
theorem busyWindowIsInvisible : Obligations.BusyWindowIsInvisible := by
  intro s i xs u hr hi hu
  obtain ⟨r, d, hwindow⟩ := stepTimes_earlyAccesses xs hr hi
  have hlast : exec i { s with running := none, inbox := [], resp := r, draws := d } = _ :=
    exec_withPort (s := { s with running := none, inbox := [] })
      { s with running := none, inbox := [], resp := r, draws := d } hu
  refine ⟨r, d, ?_⟩
  rw [stepTimes_succ hwindow, step_of_last (s := { s with inbox := [], resp := r, draws := d }) hr rfl, hlast,
    ← exec_keeps_port hu]
  rfl

/-! ## Steps go on -/

/-- The entries of `ORD` that hold the order are block indices (R43 item 3). -/
theorem toNat_ordWord_lt {s : State} (hord : s.orderHolds) {k : Nat} (hk : k < s.bcnt.toNat) :
    (s.ordWord k).toNat < s.bcnt.toNat := by
  have hmem : (s.ordWord k).toNat ∈ (List.range s.bcnt.toNat).map fun k => (s.ordWord k).toNat :=
    List.mem_map.2 ⟨k, List.mem_range.2 hk, rfl⟩
  rw [map_ordWord_eq_shuffled hord] at hmem
  exact List.mem_range.1 (s.shuffled_perm.subset hmem)

/-- R70: in phase PERMUTED both accesses of the absorption fall inside their memories. -/
theorem absorbStep_of_phaseHolds {s : State} (hs : s.phaseHolds) (hp : s.phase = .permuted) :
    absorbStep s = .next (s.absorbAt (s.ordWord s.t.toNat)) := by
  simp only [State.phaseHolds, hp] at hs
  obtain ⟨hfits, hord, ht, -, -⟩ := hs
  have hcap : s.bcnt.toNat ≤ s.par.msgWords := (fits_iff s).1 hfits
  exact absorbStep_eq (ht.trans_le hcap) ((toNat_ordWord_lt hord ht).trans_le hcap)

theorem absorbLoop_answers (n : Nat) {s : State} (hwf : Params.wf s.par = true) (hs : s.phaseHolds) :
    ∃ t, absorbLoop n s = .next t := by
  induction n generalizing s with
  | zero => exact ⟨s, rfl⟩
  | succ n ih =>
    rw [absorbLoop]
    split
    next hp =>
      rw [absorbStep_of_phaseHolds hs hp, andThen_next]
      exact ih (s := s.absorbAt (s.ordWord s.t.toNat)) hwf (absorb_phaseHolds hwf hp hs)
    next => exact ⟨s, rfl⟩

theorem shuffleBody_of_fits {s : State} (hf : s.fits = true) : shuffleBody s = .next s.permute :=
  if_pos hf

theorem fits_of_ready {s : State} (hs : s.phaseHolds) (hp : s.phase = .ready) : s.fits = true := by
  simp only [State.phaseHolds, hp] at hs
  obtain ⟨hf, -⟩ := hs
  exact hf

theorem begin_phaseHolds {s : State} (hf : s.fits = true) : s.begin.phaseHolds := ⟨hf, rfl, rfl, rfl⟩

theorem acceptedBody_answers {i : Instr} {s : State} (hwf : Params.wf s.par = true) (hs : s.phaseHolds)
    (ha : s.accepts i = true) : ∃ t, acceptedBody i s = .next t := by
  have hlegal : legalIn i s.phase = true := ((accepts_iff i s).1 ha).2.1
  cases i with
  | nop | init | ksnext | mix | fround | final | clr => exact ⟨_, rfl⟩
  | shuffle =>
    have hp : s.phase = .ready := of_decide_eq_true hlegal
    rw [acceptedBody, shuffleBody_of_fits (fits_of_ready hs hp)]
    exact ⟨_, rfl⟩
  | absorb1 =>
    have hp : s.phase = .permuted := of_decide_eq_true hlegal
    rw [acceptedBody, absorbStep_of_phaseHolds hs hp]
    exact ⟨_, rfl⟩
  | absorb =>
    obtain ⟨t, ht⟩ := absorbLoop_answers (s.par.msgWords + 1) hwf hs
    rw [acceptedBody, absorbBody, ht]
    exact ⟨_, rfl⟩
  | hash =>
    have hf : s.fits = true := fits_of_accepts ha rfl
    obtain ⟨t, ht⟩ := absorbLoop_answers (s.par.msgWords + 1) (s := s.begin.permute) hwf
      (permute_phaseHolds hwf rfl (begin_phaseHolds hf))
    rw [acceptedBody, shuffleBody_of_fits (s := s.begin) hf, andThen_next, absorbBody,
      State.permute_par, State.begin_par, ht]
    exact ⟨_, rfl⟩

/-- No command stops in a state whose phase says what it should. -/
theorem exec_answers {s : State} (i : Instr) (hwf : Params.wf s.par = true) (hs : s.phaseHolds) :
    ∃ t, exec i s = .next t := by
  rw [exec_eq_gate]
  obtain ⟨-, -, -, hg⟩ | ⟨-, -, -, hg⟩ | ⟨-, -, -, -, -, hg⟩ | ⟨ha, hg⟩ := gate_cases i s (acceptedBody i)
  · exact ⟨_, hg⟩
  · exact ⟨_, hg⟩
  · exact ⟨_, hg⟩
  · rw [hg]; exact acceptedBody_answers hwf hs ha

theorem issue_answers {s : State} (cw : Word) (hwf : Params.wf s.par = true) (hs : s.phaseHolds) :
    ∃ t, issue s cw = .next t := by
  obtain ⟨-, -, hi⟩ | ⟨-, hi⟩ | ⟨i, -, -, -, hi⟩ | ⟨i, -, -, hi⟩ := issue_cases s cw
  · exact ⟨_, hi⟩
  · exact ⟨_, hi⟩
  · exact ⟨_, hi⟩
  · rw [hi]; exact exec_answers i hwf hs

theorem hostWrite_answers {s : State} (o : Offset) (n : Nat) (v : Word) (hwf : Params.wf s.par = true)
    (hs : s.phaseHolds) : ∃ t, hostWrite s o n v = .next t := by
  unfold hostWrite
  split
  · split
    next => exact issue_answers (s := s.respond .ok) v hwf hs
    next => exact ⟨_, rfl⟩
    next => exact ⟨_, rfl⟩
  · exact ⟨_, rfl⟩

theorem serve_answers {s : State} (e : HostEvent) (hwf : Params.wf s.par = true) (hs : s.phaseHolds) :
    ∃ t, serve s e = .next t := by
  cases e with
  | reset => exact ⟨_, rfl⟩
  | access x =>
    simp only [serve]
    split
    · exact ⟨_, rfl⟩
    · cases x with
      | read o n => exact ⟨_, rfl⟩
      | write o n v => exact hostWrite_answers o n v hwf hs

theorem State.Inv.stepsOn {s : State} (h : s.Inv) : s.stepsOn := by
  obtain ⟨hwf, -, -, -, -, -, -, hphase⟩ := h
  rw [State.stepsOn]
  obtain ⟨-, -, hs⟩ | ⟨i, -, -, hs⟩ | ⟨e, rest, -, -, hs⟩ := step_cases s
  · exact ⟨s, hs⟩
  · rw [hs]; exact exec_answers (s := { s with running := none }) i hwf hphase
  · rw [hs]; exact serve_answers (s := { s with inbox := rest }) e.event hwf hphase

/-- The step that no early input comes before ends the command in execution. -/
theorem State.Inv.ends {s : State} (h : s.Inv) {i : Instr} (hr : s.running = some i)
    (he : s.nextIsEarly = false) : ∃ t, step s = .next t ∧ t.running = none := by
  obtain ⟨t, ht⟩ := h.stepsOn
  have hexec : exec i { s with running := none } = .next t := by rw [← step_of_last hr he, ht]
  exact ⟨t, ht, exec_keeps_running hexec⟩

/-- An early input takes one step and leaves the inputs after it (R68, R230). -/
theorem step_takes_early_input {s t : State} {i : Instr} {e : Input} {rest : List Input}
    (hr : s.running = some i) (hi : s.inbox = e :: rest) (he : e.early = true)
    (h : step s = .next t) : t.inbox = rest := by
  obtain ⟨event, early⟩ := e
  cases he
  cases event with
  | access x =>
    rw [step_of_early_access hr hi] at h
    obtain ⟨r, d, hbusy⟩ := busyAccess_eq { s with inbox := rest } x
    rw [hbusy] at h
    cases h; rfl
  | reset =>
    have hreset : step s = .next { s with inbox := rest }.resetEvent := by
      simp [step, advance, serve, State.busy, hr, hi]
    rw [hreset] at h
    cases h; rfl

/-- Each early input takes one step, and the step after the last of them ends the command (R236). -/
theorem State.Inv.ends_within {s : State} (h : s.Inv) :
    ∃ n t, n ≤ s.inbox.length + 1 ∧ stepTimes n s = .next t ∧ t.running = none := by
  cases hr : s.running with
  | none => exact ⟨0, s, Nat.zero_le _, rfl, hr⟩
  | some i =>
    by_cases he : s.nextIsEarly = false
    · obtain ⟨t, ht, hend⟩ := h.ends hr he
      exact ⟨1, t, Nat.le_add_left .., (stepTimes_one s).trans ht, hend⟩
    · cases hi : s.inbox with
      | nil => simp [State.nextIsEarly, hi] at he
      | cons e rest =>
        have hearly : e.early = true := by simpa [State.nextIsEarly, hi] using he
        obtain ⟨u, hu⟩ := h.stepsOn
        have hrest : u.inbox = rest := step_takes_early_input hr hi hearly hu
        obtain ⟨n, t, hn, ht, hend⟩ := State.Inv.ends_within (stepsKeepTheInvariant s u h hu)
        refine ⟨n + 1, t, ?_, ?_, hend⟩
        · rw [List.length_cons, ← hrest]; omega
        · rw [stepTimes, hu, andThen_next, ht]
termination_by s.inbox.length
decreasing_by simp [hrest, hi]

/-- Settles O55: no step from the invariant stops, and the step that ends a command leaves none in execution. -/
theorem invariantStatesStepOn : Obligations.InvariantStatesStepOn :=
  fun _ h => ⟨h.stepsOn, fun _ hr he => h.ends hr he, h.ends_within⟩

end Sys2Proof.Machine

/-! PROOF. The command words (30_encoding.md): the opcode map and the decoder, read both ways (R86), and the words
the decoder rejects (R88). -/

namespace Sys2Proof

/-- The opcode map names a command for its own word and for no other number (R86). -/
theorem instrOfOpcode_eq_some_iff (k : Nat) (i : Instr) :
    instrOfOpcode k = some i ↔ k = (encode i).toNat := by
  constructor
  · intro h
    unfold instrOfOpcode at h
    split at h
    all_goals cases h
    all_goals rfl
  · rintro rfl
    cases i with
    | _ => rfl

/-- The numbers outside the opcode map (R88). -/
theorem instrOfOpcode_eq_none_iff (k : Nat) :
    instrOfOpcode k = none ↔ (10 ≤ k ∧ k ≤ 14) ∨ 16 ≤ k := by
  unfold instrOfOpcode
  split
  case h_12 => grind
  all_goals simp

/-- The three outcomes of the decoder, told apart by the reserved field and the opcode map (R86, R88). -/
theorem decode_outcomes (cw : Word) :
    (decode cw = .error .reservedBits ↔ reservedField cw ≠ 0) ∧
    (decode cw = .error .unknownOpcode ↔
      reservedField cw = 0 ∧ instrOfOpcode (opcodeField cw) = none) ∧
    ∀ i, decode cw = .ok i ↔ reservedField cw = 0 ∧ instrOfOpcode (opcodeField cw) = some i := by
  unfold decode
  split
  next hr =>
    cases instrOfOpcode (opcodeField cw) with
    | none => simp [hr]
    | some i => simp [hr]
  next hr => simp [hr]

/-- Every command word fits the opcode field. -/
theorem encode_lt (i : Instr) : (encode i).toNat < 256 := by
  cases i with
  | _ => decide

/-- The decoder and the encoder invert each other: a word is the quotient and the remainder by 256 of its number. -/
theorem decode_eq_ok_iff_eq_encode (cw : Word) (i : Instr) : decode cw = .ok i ↔ cw = encode i := by
  have hlt : (encode i).toNat < 256 := encode_lt i
  obtain ⟨-, -, hok⟩ := decode_outcomes cw
  rw [hok, instrOfOpcode_eq_some_iff, ← BitVec.toNat_inj, reservedField, opcodeField]
  omega

/-- Settles O18: the decoder inverts the encoder, and the table is the encoder's. -/
theorem decodeAndEncodeAgree : Obligations.DecodeAndEncodeAgree :=
  ⟨decode_eq_ok_iff_eq_encode, rfl, rfl, rfl, rfl, rfl, rfl, rfl, rfl, rfl, rfl, rfl⟩

/-- Settles O19: the two errors are the two ways a word fails to be accepted. -/
theorem illegalWordsAreRejectedByName : Obligations.IllegalWordsAreRejectedByName := by
  intro cw
  obtain ⟨hreserved, hopcode, -⟩ := decode_outcomes cw
  rw [instrOfOpcode_eq_none_iff] at hopcode
  exact ⟨hreserved, hopcode⟩

@[simp] theorem decode_encode (i : Instr) : decode (encode i) = .ok i :=
  (decode_eq_ok_iff_eq_encode (encode i) i).2 rfl

/-- A command word numbered as the table numbers it decodes to its command. -/
theorem decodeTableWord_encode (i : Instr) : decodeTableWord 64 (encode i).toNat = some i := by
  have hword : tableWord 64 (encode i).toNat = encode i := by
    rw [tableWord, Nat.mod_eq_of_lt (encode i).isLt, BitVec.ofNat_toNat, BitVec.setWidth_eq]
  rw [decodeTableWord, hword, decode_encode]

/-- A number whose word has no command decodes to none. -/
theorem decodeTableWord_eq_none {w : Nat} {e : DecodeError} (h : decode (tableWord 64 w) = .error e) :
    decodeTableWord 64 w = none := by
  rw [decodeTableWord, h]

/-- Settles O20: three words of the table, an opcode outside the map, and a word with a reserved bit set. -/
theorem tableWordsDecode : Obligations.TableWordsDecode := by
  obtain ⟨-, hopcode, -⟩ := decode_outcomes (tableWord 64 0x0A)
  obtain ⟨hreserved, -, -⟩ := decode_outcomes (tableWord 64 0x109)
  exact ⟨decodeTableWord_encode .shuffle, decodeTableWord_encode .absorb, decodeTableWord_encode .clr,
    decodeTableWord_eq_none (hopcode.2 ⟨rfl, rfl⟩), decodeTableWord_eq_none (hreserved.2 (by decide))⟩

end Sys2Proof

/-! PROOF. What a command leaves as it was (30_encoding.md R87, the column of the writes; 60_exceptions.md R205,
R206). One lemma says where the state after a command may differ from the state before it (`exec_column`). -/

namespace Sys2Proof.Machine

open Sys2Proof

/-- `s` with the pieces that command `i` writes taken from `t`: where it is carried out those of its row, and where it
is not the error fields and `IP` (R205, R206). What `ORD` then holds is said outright (R124). -/
def State.column (carriedOut : Bool) (i : Instr) (s t : State) : State :=
  { s with
    sreg := if i ∈ [.init, .absorb1, .absorb, .fround, .final, .hash] then t.sreg else s.sreg
    t := if i ∈ [.init, .absorb1, .absorb, .hash, .clr] then t.t else s.t
    rnd := if i ∈ [.init, .fround, .final, .hash, .clr] then t.rnd else s.rnd
    ord := if carriedOut = true ∧ i ∈ [.shuffle, .hash] then Memory.putIndices s.ord 0 s.shuffled.1 else s.ord
    ks := if i ∈ [.ksnext, .shuffle, .hash] then t.ks else s.ks
    ksout := if i = .ksnext then t.ksout else s.ksout
    mxout := if i = .mix then t.mxout else s.mxout
    phase := if i ∈ [.nop, .ksnext, .mix] then s.phase else t.phase
    err := if carriedOut = true ∧ i ≠ .clr then s.err else t.err
    errc := if carriedOut = true ∧ i ≠ .clr then s.errc else t.errc
    errinfo := if carriedOut = true ∧ i ≠ .clr then s.errinfo else t.errinfo
    ip := t.ip }

/-- The absorption answers only `S`, `T` and `PHASE` anew (R157). -/
theorem absorbBody_writes {s t : State} (h : absorbBody s = .next t) :
    ∃ S n p, t = { s with sreg := S, t := n, phase := p } :=
  ⟨_, _, _, absorbLoop_next _ s t h⟩

/-- The finalization writes only `S`, `RND` and `PHASE` (R170). -/
theorem finalize_writes (s : State) : ∃ S n p, s.finalize = { s with sreg := S, rnd := n, phase := p } :=
  ⟨_, _, _, finalLoop_eq s.roundsLeft s⟩

theorem acceptedBody_column {i : Instr} {s t : State} (h : acceptedBody i s = .next t) :
    t = s.column true i t := by
  cases i with
  | nop | init | ksnext | mix | fround | clr => cases h; rfl
  | shuffle =>
    obtain ⟨u, hu, h⟩ := (andThen_eq_next _ _ _).1 h
    obtain ⟨-, rfl⟩ := shuffleBody_next s u hu
    cases h; rfl
  | absorb1 =>
    obtain ⟨u, hu, h⟩ := (andThen_eq_next _ _ _).1 h
    obtain ⟨-, -, rfl⟩ := absorbStep_next s u hu
    cases h; rfl
  | absorb =>
    obtain ⟨u, hu, h⟩ := (andThen_eq_next _ _ _).1 h
    obtain ⟨S, n, p, rfl⟩ := absorbBody_writes hu
    cases h; rfl
  | final =>
    obtain ⟨S, n, p, hf⟩ := finalize_writes s
    cases h; rw [hf]; rfl
  | hash =>
    obtain ⟨u, hu, h⟩ := (andThen_eq_next _ _ _).1 h
    obtain ⟨v, hv, h⟩ := (andThen_eq_next _ _ _).1 h
    obtain ⟨-, rfl⟩ := shuffleBody_next s.begin u hu
    obtain ⟨S, n, p, rfl⟩ := absorbBody_writes hv
    obtain ⟨S', n', p', hf⟩ := finalize_writes { s.begin.permute with sreg := S, t := n, phase := p }
    cases h; rw [hf]; rfl

/-- A command that is not carried out is ignored, or records an error and sets `IP` (R205, R206). -/
theorem exec_of_not_accepts {i : Instr} {s t : State} (ha : s.accepts i = false)
    (h : exec i s = .next t) :
    t = { s with err := t.err, errc := t.errc, errinfo := t.errinfo, ip := t.ip } := by
  rw [exec_eq_gate] at h
  obtain rfl | ⟨e, rfl⟩ | ⟨ha', -⟩ := gate_eq_next h
  · rfl
  · rfl
  · rw [ha] at ha'; cases ha'

/-- Where the state after a command may differ from the state before it. -/
theorem exec_column {i : Instr} {s t : State} (h : exec i s = .next t) :
    t = s.column (s.accepts i) i t := by
  cases ha : s.accepts i with
  | true =>
    rw [exec_eq_gate, gate_of_accepts i s _ ha] at h
    exact acceptedBody_column h
  | false =>
    rw [exec_of_not_accepts ha h]
    simp [State.column]

/-- A command leaves the message as it was: `LEN`, and the bytes of `MSG`. -/
theorem exec_keeps_message {i : Instr} {s t : State} (h : exec i s = .next t) : t.message = s.message :=
  (congrArg State.message (exec_column h) :)

theorem exec_keeps_var {i : Instr} {s t : State} (h : exec i s = .next t) : t.var = s.var :=
  (congrArg State.var (exec_column h) :)

/-- Of the commands carried out only `CLR` writes `ERR`. -/
theorem exec_keeps_err {i : Instr} {s t : State} (ha : s.accepts i = true) (hi : i ≠ .clr)
    (h : exec i s = .next t) : t.err = s.err :=
  (congrArg State.err (exec_column h)).trans (if_pos ⟨ha, hi⟩)

/-- The order `SHUFFLE` writes ends at byte `8 * BCNT` of `ORD` (R124). -/
theorem byte?_putIndices_shuffled {s : State} {a : Nat} (ha : 8 * s.bcnt.toNat ≤ a) :
    Memory.byte? (Memory.putIndices s.ord 0 s.shuffled.1) a = Memory.byte? s.ord a := by
  rw [Memory.byte?_putIndices, s.shuffled_length, if_neg (by omega)]

/-- Settles O12: each field of the state after a command, read off `exec_column`. -/
theorem commandsWriteOnlyTheirColumn : Obligations.CommandsWriteOnlyTheirColumn := by
  intro i s t h
  have ht : t = s.column (s.accepts i) i t := exec_column h
  have hord : t.ord =
      if s.accepts i = true ∧ i ∈ [.shuffle, .hash] then Memory.putIndices s.ord 0 s.shuffled.1 else s.ord :=
    congrArg State.ord ht
  refine ⟨(congrArg State.len ht :), exec_keeps_var h, (congrArg State.ie ht :), (congrArg State.mxx ht :),
    (congrArg State.mxrp ht :), exec_keeps_par h, exec_keeps_running h, (congrArg State.inbox ht :),
    (congrArg State.resp ht :), (congrArg State.epoch ht :), (congrArg State.draws ht :),
    fun a => (congrArg (fun u => Memory.byte? u.msg a) ht :), fun a ha => ?beyond,
    fun hi => (congrArg State.sreg ht).trans (if_neg hi),
    fun hi => (congrArg State.t ht).trans (if_neg hi),
    fun hi => (congrArg State.rnd ht).trans (if_neg hi), fun hi a => ?order,
    fun hi => (congrArg State.ks ht).trans (if_neg hi),
    fun hi => (congrArg State.ksout ht).trans (if_neg hi),
    fun hi => (congrArg State.mxout ht).trans (if_neg hi),
    fun hi => (congrArg State.phase ht).trans (if_pos hi),
    fun ha hi => ⟨exec_keeps_err ha hi h,
      (congrArg State.errc ht).trans (if_pos ⟨ha, hi⟩),
      (congrArg State.errinfo ht).trans (if_pos ⟨ha, hi⟩)⟩,
    fun ha => exec_of_not_accepts ha h⟩
  case beyond =>
    rw [hord]
    split
    · exact byte?_putIndices_shuffled ha
    · rfl
  case order => rw [hord, if_neg fun ⟨_, hw⟩ => hi hw]

end Sys2Proof.Machine

/-! PROOF. `HASH` ends in DONE (45_control.md R185), and in DONE `S` is the digest of the message held (R186,
R190). -/

namespace Sys2Proof.Machine

open Sys2Proof

/-! ## `HASH` ends in DONE -/

theorem t_lt_bcnt_of_permuted {s : State} (hs : s.phaseHolds) (hp : s.phase = .permuted) :
    s.t.toNat < s.bcnt.toNat := by
  simp only [State.phaseHolds, hp] at hs
  obtain ⟨-, -, ht, -⟩ := hs
  exact ht

theorem rnd_lt_rounds_of_absorbed {s : State} (hs : s.phaseHolds) (hp : s.phase = .absorbed) :
    s.rnd.toNat < s.rounds := by
  simp only [State.phaseHolds, hp] at hs
  obtain ⟨-, -, -, hrnd, -⟩ := hs
  exact hrnd

/-- Given an iteration for each block left, the absorption ends with every block absorbed (R157). -/
theorem absorbLoop_absorbed {n : Nat} {s : State} (hwf : Params.wf s.par = true) (hs : s.phaseHolds)
    (hp : s.phase = .permuted ∨ s.phase = .absorbed)
    (hn : s.phase = .permuted → s.bcnt.toNat - s.t.toNat ≤ n) :
    ∃ t, absorbLoop n s = .next t ∧ t.phase = .absorbed ∧ t.phaseHolds := by
  induction n generalizing s with
  | zero =>
    obtain hp | hp := hp
    · have hlt : s.t.toNat < s.bcnt.toNat := t_lt_bcnt_of_permuted hs hp
      have hleft : s.bcnt.toNat - s.t.toNat ≤ 0 := hn hp
      omega
    · exact ⟨s, rfl, hp, hs⟩
  | succ n ih =>
    rw [absorbLoop]
    obtain hp | hp := hp
    · have hlt : s.t.toNat < s.bcnt.toNat := t_lt_bcnt_of_permuted hs hp
      have hleft : s.bcnt.toNat - s.t.toNat ≤ n + 1 := hn hp
      have hnext : (s.t + 1).toNat = s.t.toNat + 1 := by bv_omega
      rw [if_pos hp, absorbStep_of_phaseHolds hs hp, andThen_next]
      refine ih (s := s.absorbAt (s.ordWord s.t.toNat)) hwf (absorb_phaseHolds hwf hp hs) ?_ fun _ => ?_
      · rw [State.absorbAt_phase, hp]
        split
        · exact .inr rfl
        · exact .inl rfl
      · rw [State.absorbAt_bcnt, State.absorbAt_t, hnext]
        omega
    · exact ⟨s, if_neg (by simp [hp]), hp, hs⟩

/-- Given an iteration for each round left, the finalization ends in DONE (R170). -/
theorem finalLoop_done {n : Nat} {s : State} (hwf : Params.wf s.par = true) (hs : s.phaseHolds)
    (hp : s.phase = .absorbed ∨ s.phase = .done)
    (hn : s.phase = .absorbed → s.rounds - s.rnd.toNat ≤ n) :
    (finalLoop n s).phase = .done ∧ (finalLoop n s).phaseHolds := by
  induction n generalizing s with
  | zero =>
    obtain hp | hp := hp
    · have hlt : s.rnd.toNat < s.rounds := rnd_lt_rounds_of_absorbed hs hp
      have hleft : s.rounds - s.rnd.toNat ≤ 0 := hn hp
      omega
    · exact ⟨hp, hs⟩
  | succ n ih =>
    rw [finalLoop]
    obtain hp | hp := hp
    · have hlt : s.rnd.toNat < s.rounds := rnd_lt_rounds_of_absorbed hs hp
      have hleft : s.rounds - s.rnd.toNat ≤ n + 1 := hn hp
      have hrange : s.rounds < 2 ^ 32 := (State.rounds_range hwf).2
      have hnext : (s.rnd + 1).toNat = s.rnd.toNat + 1 := by bv_omega
      rw [if_pos hp]
      refine ih (s := s.finalStep) hwf (round_phaseHolds hwf hp hs) ?_ fun _ => ?_
      · rw [State.finalStep_phase, hp]
        split
        · exact .inr rfl
        · exact .inl rfl
      · rw [State.finalStep_rounds, State.finalStep_rnd, hnext]
        omega
    · rw [if_neg (by simp [hp])]
      exact ⟨hp, hs⟩

/-- In ABSORBED the rounds left are `R(VAR) - RND` (R170). -/
theorem roundsLeft_of_absorbed {s : State} (hwf : Params.wf s.par = true) (hs : s.phaseHolds)
    (hp : s.phase = .absorbed) : s.roundsLeft = s.rounds - s.rnd.toNat := by
  have hlt : s.rnd.toNat < s.rounds := rnd_lt_rounds_of_absorbed hs hp
  have hrange : s.rounds < 2 ^ 32 := (State.rounds_range hwf).2
  rw [State.roundsLeft]
  bv_omega

theorem finalize_done {s : State} (hwf : Params.wf s.par = true) (hs : s.phaseHolds)
    (hp : s.phase = .absorbed) : s.finalize.phase = .done ∧ s.finalize.phaseHolds :=
  finalLoop_done hwf hs (.inl hp) fun _ => (roundsLeft_of_absorbed hwf hs hp).ge

theorem accepts_hash {s : State} (he : s.err = false) (hf : s.fits = true) : s.accepts .hash = true :=
  (accepts_iff .hash s).2 ⟨.inl he, rfl, fun _ => (fits_iff s).1 hf⟩

/-- R185: `HASH` of a message that fits runs all four bodies and ends in DONE. -/
theorem exec_hash_done {s : State} (hwf : Params.wf s.par = true) (he : s.err = false)
    (hf : s.fits = true) : ∃ t, exec .hash s = .next t ∧ t.phase = .done ∧ t.phaseHolds := by
  have hshuffled : s.begin.permute.phaseHolds := permute_phaseHolds hwf rfl (begin_phaseHolds hf)
  have hphase : s.begin.permute.phase = .permuted ∨ s.begin.permute.phase = .absorbed := by
    rw [State.permute_phase]
    split
    · exact .inr rfl
    · exact .inl rfl
  obtain ⟨u, hu, hup, hus⟩ : ∃ u, absorbBody s.begin.permute = .next u ∧ u.phase = .absorbed ∧ u.phaseHolds :=
    absorbLoop_absorbed hwf hshuffled hphase fun _ =>
      (Nat.sub_le _ _).trans (((fits_iff s).1 hf).trans (Nat.le_succ _))
  have huwf : Params.wf u.par = true := by rw [absorbBody_keeps_par hu]; exact hwf
  obtain ⟨hdone, hholds⟩ := finalize_done huwf hus hup
  refine ⟨u.finalize.complete, ?_, hdone, hholds⟩
  rw [exec_eq_gate, gate_of_accepts _ _ _ (accepts_hash he hf), acceptedBody,
    shuffleBody_of_fits (s := s.begin) hf, andThen_next, hu, andThen_next]

/-! ## The digest of the message -/

/-- Bytes at or beyond the end of the message do not reach a block (R151). -/
theorem loadBlock_congr {f g : Nat → Byte} {len : Word} (h : ∀ a, a < len.toNat → f a = g a)
    (index : Word) : loadBlock f len index = loadBlock g len index := by
  refine packBytes_congr _ _ fun k _ => ?_
  split
  next hk => exact h _ hk
  next => rfl

/-- The digest depends on the bytes of the message only (R186). -/
theorem digestOf_congr (p : Params) (var : Variant) {f g : Nat → Byte} {len : Word}
    (h : ∀ a, a < len.toNat → f a = g a) : digestOf p var len f = digestOf p var len g := by
  have hblock : absorbBlock (Params.lv p) var f len = absorbBlock (Params.lv p) var g len := by
    funext S index
    rw [absorbBlock, absorbBlock, loadBlock_congr h]
  rw [digestOf, digestOf, absorbList, absorbList, hblock]

theorem State.message_length (s : State) : s.message.length = s.len.toNat := by
  simp [State.message]

theorem State.message_getD (s : State) {a : Nat} (h : a < s.len.toNat) : s.message.getD a 0 = s.msg8 a := by
  rw [List.getD_eq_getElem _ _ (by rwa [s.message_length])]
  simp [State.message]

/-- The digest of the message held, from `LEN` and the bytes of `MSG`. -/
theorem digest_message (s : State) : digest s.par s.var s.message = digestOf s.par s.var s.len s.msg8 := by
  rw [digest, s.message_length, BitVec.ofNat_toNat, BitVec.setWidth_eq]
  exact digestOf_congr _ _ fun a ha => s.message_getD ha

/-- R190: in DONE `S` is the digest of the message held. -/
theorem sreg_of_done {s : State} (hs : s.phaseHolds) (hp : s.phase = .done) :
    s.sreg = digest s.par s.var s.message := by
  simp only [State.phaseHolds, hp] at hs
  obtain ⟨-, -, -, -, hsreg⟩ := hs
  rw [hsreg, digest_message, State.finalizedUpTo, State.absorbedUpTo,
    List.take_of_length_le s.shuffled_length.le]
  rfl

end Sys2Proof.Machine

/-! PROOF. The host procedure for one digest (30_encoding.md R90; 45_control.md R187). Each line of a script is a list
of inputs the machine serves one after another (`State.servesAll`), and a script is its lines in a row. -/

namespace Sys2Proof.Machine

open Sys2Proof

/-! ## Inputs served one after another -/

/-- From `s` the machine serves the inputs `xs`, one in each step, and is then in `t` but for the inputs that follow,
whatever they are. -/
def State.servesAll (s : State) (xs : List Input) (t : State) : Prop :=
  ∀ rest, stepTimes xs.length { s with inbox := xs ++ rest } = .next { t with inbox := rest }

theorem stepTimes_add {m : Nat} (n : Nat) {s t : State} (h : stepTimes m s = .next t) :
    stepTimes (m + n) s = stepTimes n t := by
  induction m generalizing s with
  | zero => cases h; rw [Nat.zero_add]
  | succ m ih =>
    rw [stepTimes] at h
    obtain ⟨u, hu, ht⟩ := (andThen_eq_next _ _ _).1 h
    rw [Nat.succ_add, stepTimes, hu, andThen_next, ih ht]

theorem State.servesAll_nil (s : State) : s.servesAll [] s := fun _ => rfl

theorem State.servesAll.append {s t u : State} {xs ys : List Input} (h : s.servesAll xs t)
    (h' : t.servesAll ys u) : s.servesAll (xs ++ ys) u := by
  intro rest
  rw [List.length_append, List.append_assoc, stepTimes_add _ (h (ys ++ rest))]
  exact h' rest

theorem State.servesAll_single {s t : State} {x : Input}
    (h : ∀ rest, step { s with inbox := x :: rest } = .next { t with inbox := rest }) :
    s.servesAll [x] t :=
  fun rest => (stepTimes_one _).trans (h rest)

/-- With no command in execution the next step serves the next transaction. -/
theorem step_of_access {s : State} {x : Txn} {early : Bool} {rest : List Input} (hr : s.running = none) :
    step { s with inbox := { event := .access x, early := early } :: rest } =
      serve { s with inbox := rest } (.access x) := by
  simp [step, advance, State.busy, hr]

theorem serve_read {s : State} (o : Offset) (n : Nat) (hr : s.running = none) :
    serve s (.access (.read o n)) = .next (hostRead s o n) := by
  simp [serve, State.busy, hr]

theorem serve_write {s : State} (o : Offset) (n : Nat) (v : Word) (hr : s.running = none) :
    serve s (.access (.write o n v)) = hostWrite s o n v := by
  simp [serve, State.busy, hr]

theorem servesAll_memWrite {s t : State} {l : Location} {v : Word} (hr : s.running = none)
    (hn : s.par.msgWords ≤ 2 ^ 27) (hl : l.mapped s.par.msgWords = true) (hcmd : l ≠ .cmd)
    (hw : writeLoc s v l = some t) :
    s.servesAll [memWrite (offsetOf l) v] { t with resp := some .ok } := by
  obtain ⟨hmap, -⟩ := registerMapIsOneToOne s.par.msgWords hn
  obtain ⟨hloc, haligned⟩ := hmap l hl
  refine State.servesAll_single fun rest => ?_
  rw [memWrite, step_of_access hr, serve_write (s := { s with inbox := rest }) _ _ _ hr,
    hostWrite_eq_writeRegister (s := { s with inbox := rest }) v haligned hloc hcmd]
  simp [writeRegister, writeLoc_withInbox, hw, State.respond]

/-- `WAIT` after the end of a command is one read of `STATUS` (log 12). -/
theorem servesAll_wait {s : State} (hr : s.running = none) :
    s.servesAll waitInputs { s with resp := some (.data s.status) } := by
  refine State.servesAll_single fun rest => ?_
  rw [memRead, step_of_access hr, serve_read (s := { s with inbox := rest }) _ _ hr]
  rfl

/-- While no error is recorded and no early input follows, a command word runs its command (R180). -/
theorem issue_encode {s : State} (i : Instr) (he : s.err = false) (hearly : s.nextIsEarly = false) :
    issue s (encode i) = exec i s := by
  simp [issue, he, hearly]

theorem hostWrite_cmd (s : State) (v : Word) :
    hostWrite s (offsetOf .cmd) 8 v = issue (s.respond .ok) v := rfl

/-- A command does not see the inputs to come nor the last response. -/
theorem exec_withInbox {i : Instr} {s t : State} (b : List Input) (r : Option Response)
    (h : exec i s = .next t) :
    exec i { s with inbox := b, resp := r } = .next { t with inbox := b, resp := r } := by
  have hport : exec i { s with inbox := b, resp := r } =
      .next (t.withPort { s with inbox := b, resp := r }) :=
    exec_withPort (s := s) { s with inbox := b, resp := r } h
  rw [hport, ← exec_keeps_port h]
  rfl

/-! ## The lines of the script -/

/-- R90: `CMD` runs the command, and its implicit `WAIT` reads the status after it. -/
theorem servesAll_cmd {i : Instr} {s t : State} (hr : s.running = none) (he : s.err = false)
    (h : exec i s = .next t) :
    s.servesAll (ScriptLine.inputs (.cmd i)) { t with resp := some (.data t.status) } := by
  intro rest
  have hwrite : step { s with inbox := memWrite (offsetOf .cmd) (encode i) :: (waitInputs ++ rest) } =
      .next { t with inbox := waitInputs ++ rest, resp := some .ok } := by
    rw [memWrite, step_of_access hr, serve_write (s := { s with inbox := waitInputs ++ rest }) _ _ _ hr,
      hostWrite_cmd, issue_encode (s := .respond { s with inbox := waitInputs ++ rest } .ok) i he rfl]
    exact exec_withInbox (s := s) (waitInputs ++ rest) (some .ok) h
  have hwait : stepTimes waitInputs.length { t with inbox := waitInputs ++ rest, resp := some .ok } = _ :=
    servesAll_wait (s := { t with resp := some .ok }) ((exec_keeps_running h).trans hr) rest
  rw [ScriptLine.inputs, List.length_cons, List.cons_append, stepTimes, hwrite, andThen_next, hwait]
  rfl

theorem unlock_of_idle {s : State} (hp : s.phase = .idle) : s.unlock = s := by
  rw [State.unlock, ← hp]

/-- The state after `WR CFG, v`. -/
def State.configured (s : State) (v : Word) : State :=
  { s with phase := .idle, var := variantOfBit (v.getLsbD 0), resp := some .ok }

/-- R66: `CFG` takes its write where the locked class is open. -/
theorem servesAll_wr_cfg {s : State} (v : Word) (hr : s.running = none) (hn : s.par.msgWords ≤ 2 ^ 27)
    (hp : s.phase = .idle ∨ s.phase = .done) :
    s.servesAll (ScriptLine.inputs (.wr .cfg v)) (s.configured v) :=
  servesAll_memWrite (l := .cfg) hr hn rfl nofun (if_pos ((unlocked_iff s).2 hp))

theorem servesAll_write_len {s : State} (v : Word) (hr : s.running = none) (hn : s.par.msgWords ≤ 2 ^ 27)
    (hp : s.phase = .idle) :
    s.servesAll [memWrite (offsetOf .len) v] { s with len := v, resp := some .ok } := by
  refine servesAll_memWrite hr hn rfl nofun (t := { s with len := v }) ?_
  rw [writeLoc, if_pos ((unlocked_iff s).2 (.inl hp)), unlock_of_idle hp]

theorem servesAll_write_msg {s : State} {w : Nat} (v : Word) (hr : s.running = none)
    (hn : s.par.msgWords ≤ 2 ^ 27) (hp : s.phase = .idle) (hw : w < s.par.msgWords) :
    s.servesAll [memWrite (offsetOf (.msg w)) v]
      { s with msg := Memory.putWord s.msg w v, resp := some .ok } := by
  refine servesAll_memWrite hr hn (decide_eq_true hw) nofun
    (t := { s with msg := Memory.putWord s.msg w v }) ?_
  rw [writeLoc, if_pos ((unlocked_iff s).2 (.inl hp)), unlock_of_idle hp]

/-- `MSG` with the words `f 0, f 1, ..., f (n - 1)` written from its start. -/
def Memory.putWords (m : Memory) (f : Nat → Word) : Nat → Memory
  | 0 => m
  | n + 1 => Memory.putWord (Memory.putWords m f n) n (f n)

theorem Memory.byte?_putWords (m : Memory) (f : Nat → Word) (n a : Nat) :
    Memory.byte? (Memory.putWords m f n) a =
      if a / 8 < n then some (byteOf (f (a / 8)) (a % 8)) else Memory.byte? m a := by
  induction n with
  | zero => rfl
  | succ n ih =>
    rw [putWords, byte?_putWord, ih]
    by_cases h : a / 8 = n
    · rw [if_pos h, if_pos (by omega), h]
    · rw [if_neg h]
      exact if_congr (by omega) rfl rfl

theorem servesAll_write_words {s : State} (f : Nat → Word) (n : Nat) (hr : s.running = none)
    (hn : s.par.msgWords ≤ 2 ^ 27) (hp : s.phase = .idle) (hw : n ≤ s.par.msgWords) :
    ∃ r, s.servesAll ((List.range n).map fun w => memWrite (offsetOf (.msg w)) (f w))
      { s with msg := Memory.putWords s.msg f n, resp := r } := by
  induction n with
  | zero => exact ⟨s.resp, s.servesAll_nil⟩
  | succ n ih =>
    obtain ⟨r, hwords⟩ := ih (Nat.le_of_succ_le hw)
    have hlast := servesAll_write_msg (s := { s with msg := Memory.putWords s.msg f n, resp := r }) (f n) hr hn hp hw
    rw [List.range_succ, List.map_append]
    exact ⟨some .ok, hwords.append hlast⟩

/-- The state after `LOADMSG`. -/
def State.loaded (s : State) (bytes : List Byte) : State :=
  { s with
    msg := Memory.putWords s.msg (packedWord bytes) ((bytes.length + 7) / 8)
    len := BitVec.ofNat 64 bytes.length
    resp := some .ok }

theorem servesAll_loadMsg {s : State} {bytes : List Byte} (hr : s.running = none)
    (hn : s.par.msgWords ≤ 2 ^ 27) (hp : s.phase = .idle) (hlen : bytes.length ≤ 8 * s.par.msgWords) :
    s.servesAll (ScriptLine.inputs (.loadMsg bytes)) (s.loaded bytes) := by
  obtain ⟨r, hwords⟩ := servesAll_write_words (packedWord bytes) ((bytes.length + 7) / 8) hr hn hp (by omega)
  have hlength := servesAll_write_len
    (s := { s with msg := Memory.putWords s.msg (packedWord bytes) ((bytes.length + 7) / 8), resp := r })
    (BitVec.ofNat 64 bytes.length) hr hn hp
  exact hwords.append hlength

/-- A loaded byte is read back (R62). -/
theorem loaded_msg8 (s : State) (bytes : List Byte) {a : Nat} (ha : a < bytes.length) :
    (s.loaded bytes).msg8 a = bytes.getD a 0 := by
  have hbyte : Memory.byte? (s.loaded bytes).msg a = some (bytes.getD a 0) := by
    rw [State.loaded, Memory.byte?_putWords, if_pos (by omega), packedWord,
      byteOf_packBytes _ _ (Nat.mod_lt _ (by decide)), Nat.div_add_mod]
  rw [State.msg8, hbyte]
  rfl

theorem loaded_len (s : State) {bytes : List Byte} (h : bytes.length < 2 ^ 64) :
    (s.loaded bytes).len.toNat = bytes.length := by
  rw [State.loaded, BitVec.toNat_ofNat, Nat.mod_eq_of_lt h]

/-- The message held after `LOADMSG` is the one loaded. -/
theorem loaded_message (s : State) {bytes : List Byte} (h : bytes.length < 2 ^ 64) :
    (s.loaded bytes).message = bytes := by
  refine List.ext_getElem (by rw [State.message_length, loaded_len s h]) fun a ha ha' => ?_
  simp only [State.message, List.getElem_map, List.getElem_range]
  rw [loaded_msg8 s bytes ha', List.getD_eq_getElem _ _ ha']

theorem loaded_fits (s : State) {bytes : List Byte} (h : bytes.length < 2 ^ 64)
    (hlen : bytes.length ≤ 8 * s.par.msgWords) : (s.loaded bytes).fits = true := by
  have hpar : (s.loaded bytes).par = s.par := rfl
  rw [fits_iff, State.bcnt, toNat_ceilDiv8, loaded_len s h, hpar]
  omega

theorem msgWords_le_of_wf {p : Params} (h : Params.wf p = true) : p.msgWords ≤ 2 ^ 27 := by
  simp only [Params.wf, Bool.and_eq_true, decide_eq_true_eq] at h
  obtain ⟨-, hn⟩ := h
  exact hn

theorem variantOfBit_eq_ite (b : Bool) : variantOfBit b = if b then .B else .A := by
  cases b with
  | false | true => rfl

/-- Settles O49: line by line, `WR CFG` opens the phase IDLE with the variant, `LOADMSG` loads the message, and `CMD
HASH` runs to DONE, where `S` is the digest of the message held. -/
theorem hostLoadsAndHashes : Obligations.HostLoadsAndHashes := by
  rintro s v bytes inputs hr he hwf hp hlen rfl
  have hn : s.par.msgWords ≤ 2 ^ 27 := msgWords_le_of_wf hwf
  have hbytes : bytes.length < 2 ^ 64 := by omega
  have hfits : ((s.configured v).loaded bytes).fits = true := loaded_fits (s.configured v) hbytes hlen
  obtain ⟨t, ht, hdone, hholds⟩ :=
    exec_hash_done (s := (s.configured v).loaded bytes) hwf he hfits
  have hmessage : t.message = bytes := (exec_keeps_message ht).trans (loaded_message _ hbytes)
  have hrunning : t.running = none := (exec_keeps_running ht).trans hr
  have haccepts : ((s.configured v).loaded bytes).accepts .hash = true := accepts_hash he hfits
  have herr : t.err = false := (exec_keeps_err haccepts nofun ht).trans he
  have hserved : s.servesAll (scriptInputs [.wr .cfg v, .loadMsg bytes, .cmd .hash])
      { t with resp := some (.data t.status) } := by
    simp only [scriptInputs, List.flatMap_cons, List.flatMap_nil, List.append_nil]
    exact (servesAll_wr_cfg v hr hn hp).append
      ((servesAll_loadMsg (s := s.configured v) hr hn rfl hlen).append (servesAll_cmd hr he ht))
  refine ⟨{ t with inbox := [], resp := some (.data t.status) }, ?run, ?digest, hmessage, hdone, herr,
    hrunning, rfl⟩
  case run =>
    have hrun := hserved []
    rwa [List.append_nil] at hrun
  case digest =>
    calc t.sreg
      _ = digest t.par t.var t.message := sreg_of_done hholds hdone
      _ = digest s.par (if v.getLsbD 0 then .B else .A) bytes := by
        rw [exec_keeps_par ht, exec_keeps_var ht, hmessage, ← variantOfBit_eq_ite]; rfl

end Sys2Proof.Machine

/-! PROOF. The Keystream Generator (40_keystream.md R101, R102, R106, R108) and the command `KSNEXT` (R110). -/

namespace Sys2Proof.Machine

open Sys2Proof

/-! ## Variant A: the seed update is invertible -/

theorem iterate_shiftLeft {w : Nat} (k n : Nat) (x : BitVec w) :
    (fun y : BitVec w => y <<< k)^[n] x = x <<< (k * n) := by
  induction n with
  | zero => simp
  | succ n ih => rw [Function.iterate_succ_apply', ih, Nat.mul_succ, BitVec.shiftLeft_add]

theorem iterate_ushiftRight {w : Nat} (k n : Nat) (x : BitVec w) :
    (fun y : BitVec w => y >>> k)^[n] x = x >>> (k * n) := by
  induction n with
  | zero => simp
  | succ n ih => rw [Function.iterate_succ_apply', ih, Nat.mul_succ, BitVec.shiftRight_add]

/-- An xor with a linear image that dies out when it is taken again and again loses nothing: the difference of two
inputs with the same result is its own image. -/
theorem xor_image_injective {w n : Nat} {f : BitVec w → BitVec w}
    (hxor : ∀ x y, f (x ^^^ y) = f x ^^^ f y) (hnil : ∀ x, f^[n] x = 0) :
    Function.Injective fun x => x ^^^ f x := by
  intro x y h
  have hfixed : f (x ^^^ y) = x ^^^ y := by
    refine (BitVec.xor_eq_zero_iff.1 ?_).symm
    calc x ^^^ y ^^^ f (x ^^^ y)
      _ = (x ^^^ f x) ^^^ (y ^^^ f y) := by rw [hxor]; ac_rfl
      _ = 0 := BitVec.xor_eq_zero_iff.2 h
  have hdiff : x ^^^ y = 0 := by rw [← Function.iterate_fixed hfixed n, hnil]
  exact BitVec.xor_eq_zero_iff.1 hdiff

/-- One xor-shift to the left. -/
theorem xor_shiftLeft_injective {w k : Nat} (hk : 0 < k) :
    Function.Injective fun x : BitVec w => x ^^^ x <<< k :=
  xor_image_injective (f := (· <<< k)) (n := w) (fun x y => BitVec.shiftLeft_xor_distrib x y k) fun x => by
    rw [iterate_shiftLeft]
    exact BitVec.shiftLeft_eq_zero (Nat.le_mul_of_pos_left w hk)

/-- One xor-shift to the right. -/
theorem xor_ushiftRight_injective {w k : Nat} (hk : 0 < k) :
    Function.Injective fun x : BitVec w => x ^^^ x >>> k :=
  xor_image_injective (f := (· >>> k)) (n := w) (fun x y => BitVec.ushiftRight_xor_distrib x y k) fun x => by
    rw [iterate_ushiftRight]
    exact BitVec.ushiftRight_eq_zero (Nat.le_mul_of_pos_left w hk)

/-- The three steps of R101, each of them injective. -/
theorem xorshift_injective : Function.Injective xorshift :=
  (xor_ushiftRight_injective (k := 27) (by decide)).comp
    ((xor_shiftLeft_injective (k := 25) (by decide)).comp (xor_ushiftRight_injective (k := 12) (by decide)))

@[simp] theorem ksNextA_seed (seed : Word) : (ksNextA seed).2 = xorshift seed := rfl

theorem xorshift_zero : xorshift 0 = 0 := by decide

/-- Settles O35: the update is injective on the words, and 0 already leads to 0. -/
theorem xorshiftSeedIsInvertible : Obligations.XorshiftSeedIsInvertible := by
  refine ⟨?zero, fun x y h => xorshift_injective h, fun x hx h => ?nonzero⟩
  case zero => rw [ksNextA, xorshift_zero, zero_mul]
  case nonzero =>
    rw [ksNextA_seed, ← xorshift_zero] at h
    exact hx (xorshift_injective h)

/-! ## Variant B: the quarter-rounds of one round -/

/-- The four positions of a quarter-round, in the order of its operands (R105). -/
abbrev Quarter := Fin 16 × Fin 16 × Fin 16 × Fin 16

/-- The positions a quarter-round reads and writes. -/
def Quarter.positions : Quarter → List (Fin 16)
  | (a, b, c, d) => [a, b, c, d]

/-- Two quarter-rounds touch no word in common. -/
def Quarter.apart (q r : Quarter) : Prop := ∀ i ∈ q.positions, i ∉ r.positions

/-- The quarter-round at the positions `q`. -/
def runQuarter (w : Vector Half 16) (q : Quarter) : Vector Half 16 :=
  quarterRound w q.1 q.2.1 q.2.2.1 q.2.2.2

/-- A quarter-round leaves the other words alone. -/
theorem getElem_runQuarter_of_notMem (w : Vector Half 16) {q : Quarter} {i : Fin 16}
    (hi : i ∉ q.positions) : (runQuarter w q)[i] = w[i] := by
  obtain ⟨a, b, c, d⟩ := q
  simp only [Quarter.positions, List.mem_cons, List.not_mem_nil, or_false, not_or] at hi
  obtain ⟨ha, hb, hc, hd⟩ := hi
  rw [runQuarter, getElem_quarterRound, if_neg (Ne.symm hd), if_neg (Ne.symm hc), if_neg (Ne.symm hb),
    if_neg (Ne.symm ha)]

/-- The words a quarter-round writes depend only on the words at its positions. -/
theorem getElem_runQuarter_congr {w v : Vector Half 16} {q : Quarter}
    (h : ∀ j ∈ q.positions, w[j] = v[j]) {i : Fin 16} (hi : i ∈ q.positions) :
    (runQuarter w q)[i] = (runQuarter v q)[i] := by
  have hwords := h i hi
  obtain ⟨a, b, c, d⟩ := q
  simp only [Quarter.positions, List.forall_mem_cons] at h
  obtain ⟨ha, hb, hc, hd, -⟩ := h
  simp only [runQuarter, getElem_quarterRound, ha, hb, hc, hd, hwords]

/-- A word that `q` writes and a quarter-round `r` apart from it does not: whether `r` runs before or after `q`
is the same to it. -/
theorem getElem_runQuarter_apart (w : Vector Half 16) {q r : Quarter} (h : q.apart r) {i : Fin 16}
    (hi : i ∈ q.positions) : (runQuarter (runQuarter w r) q)[i] = (runQuarter (runQuarter w q) r)[i] := by
  rw [getElem_runQuarter_of_notMem (runQuarter w q) (h i hi)]
  exact getElem_runQuarter_congr (fun j hj => getElem_runQuarter_of_notMem w (h j hj)) hi

theorem Quarter.apart.symm {q r : Quarter} (h : q.apart r) : r.apart q := fun i hr hq => h i hq hr

theorem runQuarter_comm (w : Vector Half 16) {q r : Quarter} (h : q.apart r) :
    runQuarter (runQuarter w q) r = runQuarter (runQuarter w r) q := by
  have hword (i : Fin 16) : (runQuarter (runQuarter w q) r)[i] = (runQuarter (runQuarter w r) q)[i] := by
    by_cases hq : i ∈ q.positions
    · exact (getElem_runQuarter_apart w h hq).symm
    · by_cases hr : i ∈ r.positions
      · exact getElem_runQuarter_apart w h.symm hr
      · simp only [getElem_runQuarter_of_notMem _ hq, getElem_runQuarter_of_notMem _ hr]
  exact Vector.ext fun i hi => hword ⟨i, hi⟩

/-- Quarter-rounds that are apart may run in any order. -/
theorem foldl_runQuarter_perm {l round : List Quarter} (hl : l.Perm round)
    (hround : ∀ q ∈ round, ∀ r ∈ round, q = r ∨ q.apart r) (w : Vector Half 16) :
    l.foldl runQuarter w = round.foldl runQuarter w := by
  refine (hl.symm.foldl_eq' (fun q hq r hr v => ?_) w).symm
  obtain rfl | h := hround q hq r hr
  · rfl
  · exact runQuarter_comm v h

/-- The quarter-rounds of the column round (R106). -/
def columnRound : List Quarter := [(0, 4, 8, 12), (1, 5, 9, 13), (2, 6, 10, 14), (3, 7, 11, 15)]

/-- The quarter-rounds of the diagonal round (R106). -/
def diagonalRound : List Quarter := [(0, 5, 10, 15), (1, 6, 11, 12), (2, 7, 8, 13), (3, 4, 9, 14)]

theorem columnRound_apart : ∀ q ∈ columnRound, ∀ r ∈ columnRound, q = r ∨ q.apart r := by
  unfold Quarter.apart
  decide

theorem diagonalRound_apart : ∀ q ∈ diagonalRound, ∀ r ∈ diagonalRound, q = r ∨ q.apart r := by
  unfold Quarter.apart
  decide

/-- A double-round is the two rounds one after the other. -/
theorem doubleRound_eq_foldl (w : Vector Half 16) :
    doubleRound w = diagonalRound.foldl runQuarter (columnRound.foldl runQuarter w) := rfl

/-- Settles O37: both rounds are made of quarter-rounds that are apart. -/
theorem quarterRoundsOfOneRoundCommute : Obligations.QuarterRoundsOfOneRoundCommute := fun w _ =>
  ⟨fun hl => foldl_runQuarter_perm hl columnRound_apart w,
    fun hl => foldl_runQuarter_perm hl diagonalRound_apart w⟩

/-! ## The command `KSNEXT` -/

/-- While `ERR = 1` every command but `CLR` is ignored (R206). -/
theorem exec_of_err {i : Instr} {s : State} (he : s.err = true) (hi : i ≠ .clr) : exec i s = .next s := by
  have hignored : s.ignores i = true := by simp [State.ignores, he, hi]
  rw [exec_eq_gate, gate, if_pos hignored]

/-- R181: `KSNEXT` is legal in every phase, and it does not look at the length of the message. -/
theorem accepts_ksnext {s : State} (he : s.err = false) : s.accepts .ksnext = true :=
  (accepts_iff .ksnext s).2 ⟨.inl he, rfl, nofun⟩

/-- Settles O3: accepted in every phase, `KSNEXT` runs its body; with an error recorded it is ignored. -/
theorem ksnextDrawsOneWord : Obligations.KsnextDrawsOneWord := by
  refine ⟨rfl, fun s => ⟨fun he => ?accepted, fun he => exec_of_err he nofun⟩⟩
  case accepted =>
    rw [exec_eq_gate, gate_of_accepts .ksnext s _ (accepts_ksnext he)]
    rfl

/-! ## Variant B: the word and the next seed -/

/-- A concatenation as a number: the high part counts in units of `2 ^ n`. -/
theorem toNat_append_eq_add {m n : Nat} (high : BitVec m) (low : BitVec n) :
    (high ++ low).toNat = low.toNat + high.toNat * 2 ^ n := by
  rw [BitVec.toNat_append, ← Nat.shiftLeft_add_eq_or_of_lt low.isLt, Nat.shiftLeft_eq, Nat.add_comm]

/-- Settles O36: the counter is added modulo `2 ^ 64`, and the word is `out[1]` above `out[0]`. -/
theorem arxWordIsTheFirstEightBytes : Obligations.ArxWordIsTheFirstEightBytes := fun c seed =>
  ⟨BitVec.toNat_add seed 1,
    toNat_append_eq_add (arxBlock (arxInit c seed))[1] (arxBlock (arxInit c seed))[0]⟩

end Sys2Proof.Machine

/-! PROOF. The Block Permutation and `SHUFFLE` (41_permutation.md R121 to R125). -/

namespace Sys2Proof.Machine

open Sys2Proof

/-! ## The order -/

theorem shuffle_perm (arxC : Vector Half 4) (var : Variant) (len : Word) :
    (shuffle arxC var len).1.Perm (List.range (ceilDiv8 len).toNat) :=
  shuffleLoop_perm _ _ _ _ _ (by simp)

/-- Settles O39: the loop starts from `0..n-1` and only swaps entries. -/
theorem shuffleIsABijection : Obligations.ShuffleIsABijection := fun c var len =>
  have hperm := shuffle_perm c var len
  ⟨hperm, fun _ hx => List.mem_range.1 (hperm.subset hx)⟩

/-- With at most one block the loop makes no iteration (R122). -/
theorem shuffle_of_le_one (arxC : Vector Half 4) (var : Variant) {len : Word}
    (h : (ceilDiv8 len).toNat ≤ 1) :
    shuffle arxC var len = (List.range (ceilDiv8 len).toNat, seed0 len) := by
  rw [shuffle, Nat.sub_eq_zero_of_le h, shuffleLoop]

/-- Settles O38: such a message has no block, or one. -/
theorem shortMessagesDrawNothing : Obligations.ShortMessagesDrawNothing := by
  intro c var len
  refine ⟨fun hlen => ?empty, fun ⟨hpos, hle⟩ => ?oneBlock⟩
  case empty =>
    have hblocks : (ceilDiv8 len).toNat = 0 := by rw [toNat_ceilDiv8, hlen]; rfl
    rw [shuffle_of_le_one c var (by omega), hblocks]
    rfl
  case oneBlock =>
    have hblocks : (ceilDiv8 len).toNat = 1 := by rw [toNat_ceilDiv8]; omega
    rw [shuffle_of_le_one c var (by omega), hblocks]
    rfl

/-! ## The end seed of variant B -/

/-- In variant B each draw counts the seed up by 1 (R108). -/
theorem shuffleLoop_B_seed (arxC : Vector Half 4) (i : Nat) (order : List Nat) (seed : Word) :
    (shuffleLoop arxC .B i order seed).2 = seed + BitVec.ofNat 64 i := by
  induction i generalizing order seed with
  | zero => exact (BitVec.add_zero seed).symm
  | succ i ih =>
    calc (shuffleLoop arxC .B (i + 1) order seed).2
      _ = (seed + 1) + BitVec.ofNat 64 i := ih _ _
      _ = seed + (BitVec.ofNat 64 i + 1) := by rw [add_assoc, add_comm 1]
      _ = seed + BitVec.ofNat 64 (i + 1) := by rw [BitVec.ofNat_add]; rfl

/-- Settles O40: the loop draws once for each block but the first. -/
theorem endSeedOfVariantB : Obligations.EndSeedOfVariantB := fun c len =>
  shuffleLoop_B_seed c ((ceilDiv8 len).toNat - 1) (List.range (ceilDiv8 len).toNat) (seed0 len)

/-! ## The command `SHUFFLE` -/

/-- In a phase in which it is not legal a command is refused with `E_SEQ` (R180 case 3, R203). -/
theorem exec_of_not_legal {i : Instr} {s : State} (he : s.err = false) (hi : legalIn i s.phase = false) :
    exec i s = .next (s.raiseError .seq (encode i)) := by
  have hignored : s.ignores i = false := by simp [State.ignores, he]
  rw [exec_eq_gate, gate, hignored, hi]
  rfl

/-- R181: `SHUFFLE` is legal in READY. -/
theorem accepts_shuffle {s : State} (he : s.err = false) (hp : s.phase = .ready) :
    s.accepts .shuffle = true :=
  (accepts_iff .shuffle s).2 ⟨.inl he, decide_eq_true hp, nofun⟩

theorem exec_shuffle_of_ready {s : State} (he : s.err = false) (hp : s.phase = .ready)
    (hf : s.fits = true) : exec .shuffle s = .next s.permute.complete := by
  rw [exec_eq_gate, gate_of_accepts .shuffle s _ (accepts_shuffle he hp), acceptedBody,
    shuffleBody_of_fits hf, andThen_next]

/-- Settles O4: in READY the body runs and `ORD` reads back as the order; in any other phase `SHUFFLE` is refused. -/
theorem shuffleWritesTheOrder : Obligations.ShuffleWritesTheOrder := by
  refine ⟨rfl, fun s he => ⟨fun hp hf => ?ready, fun hp => exec_of_not_legal he (decide_eq_false hp)⟩⟩
  case ready =>
    have hexec : exec .shuffle s = .next s.permute.complete :=
      exec_shuffle_of_ready he hp ((fits_iff s).2 hf)
    exact ⟨s.permute.complete, hexec, s.permute_orderHolds, fun _ => byte?_putIndices_shuffled, rfl⟩

end Sys2Proof.Machine

/-! PROOF. The Lattice Mixer (42_lattice_mixer.md R133 to R138) and the command `MIX` (R141). Both mixers take the xor
of 64 terms into the input and finish. -/

namespace Sys2Proof.Machine

open Sys2Proof

/-! ## Variant A: the order of the terms -/

/-- Settles O41: no term reads the accumulator, so the xors may be exchanged. -/
theorem mixATermsInAnyOrder : Obligations.MixATermsInAnyOrder := by
  intro x vec rp l hl
  have hexchange (acc : Word) (i j : Nat) : acc ^^^ mixTermA x vec rp i ^^^ mixTermA x vec rp j =
      acc ^^^ mixTermA x vec rp j ^^^ mixTermA x vec rp i := by ac_rfl
  exact congrArg mixFinish (hl.symm.foldl_eq' (fun i _ j _ acc => hexchange acc i j) x)

/-! ## Variant B: the input and the terms kept apart -/

/-- Term `i` of `mix_B` (R137). -/
def mixTermB (x : Word) (vec : Nat → Word) (rp : Word) (i : Nat) : Word :=
  rotl64 (conv x vec rp i) ((i * 7 + rp.toNat) % 64)

/-- The xor of the 64 terms of `mix_B`. -/
def mixSumB (x : Word) (vec : Nat → Word) (rp : Word) : Word :=
  (List.range 64).foldl (fun res i => res ^^^ mixTermB x vec rp i) 0#64

/-- The value a fold of xors starts from comes out of the fold. -/
theorem foldl_xor_init {w : Nat} {α : Type} (f : α → BitVec w) (x : BitVec w) (l : List α) :
    l.foldl (fun acc i => acc ^^^ f i) x = x ^^^ l.foldl (fun acc i => acc ^^^ f i) 0#w := by
  have hhom := List.foldl_hom (x ^^^ ·) (g₁ := fun acc i => acc ^^^ f i)
    (g₂ := fun acc i => acc ^^^ f i) (l := l) (init := 0#w) fun acc i => BitVec.xor_assoc x acc (f i)
  rwa [BitVec.xor_zero] at hhom

theorem mixB_eq_mixFinish (x : Word) (vec : Nat → Word) (rp : Word) :
    mixB x vec rp = mixFinish (x ^^^ mixSumB x vec rp) :=
  congrArg mixFinish (foldl_xor_init (mixTermB x vec rp) x (List.range 64))

/-- The last step distributes over xor. -/
theorem mixFinish_xor (v w : Word) : mixFinish (v ^^^ w) = mixFinish v ^^^ mixFinish w := by
  simp only [mixFinish, BitVec.ushiftRight_xor_distrib]
  ac_rfl

/-! ## Variant B: the terms read bits 38:0 of the input -/

theorem getLsbD_byteMask (i : Nat) : (0xFF : Word).getLsbD i = decide (i < 8) := by
  have hmask : (0xFF : Word) = (BitVec.allOnes 8).setWidth 64 := by decide
  rw [hmask, BitVec.getLsbD_setWidth, BitVec.getLsbD_allOnes, ← Bool.decide_and, decide_eq_decide]
  omega

/-- Words with equal bits 38:0 have equal windows of 8 bits at every shift below 32 (R135). -/
theorem window_congr {x y : Word} (h : x.extractLsb' 0 39 = y.extractLsb' 0 39) {k : Nat} (hk : k < 32) :
    (x >>> k) &&& 0xFF = (y >>> k) &&& 0xFF := by
  refine BitVec.eq_of_getLsbD_eq fun i _ => ?_
  simp only [BitVec.getLsbD_and, BitVec.getLsbD_ushiftRight, getLsbD_byteMask]
  by_cases hi : i < 8
  case pos =>
    have hbit := congrArg (BitVec.getLsbD · (k + i)) h
    have hlow : k + i < 39 := by omega
    simpa [hi, hlow] using hbit
  case neg => simp [hi]

theorem noise_congr {x y : Word} (h : x.extractLsb' 0 39 = y.extractLsb' 0 39) (rp : Word) (i : Nat) :
    noise x rp i = noise y rp i := by
  rw [noise, noise, window_congr h (Nat.mod_lt i (by decide))]

/-- The input enters a term through the noise only (R136). -/
theorem mixTermB_congr {x y : Word} (h : x.extractLsb' 0 39 = y.extractLsb' 0 39)
    (vec : Nat → Word) (rp : Word) : mixTermB x vec rp = mixTermB y vec rp := by
  funext i
  simp only [mixTermB, conv, noiseExt, noise_congr h]

/-- Settles O42: the terms are the same for both inputs and cancel, and the last step distributes over xor. -/
theorem mixBHighBitsEnterOnce : Obligations.MixBHighBitsEnterOnce := by
  intro x y vec rp h
  have hsum : mixSumB x vec rp = mixSumB y vec rp := by rw [mixSumB, mixSumB, mixTermB_congr h]
  calc mixB x vec rp ^^^ mixB y vec rp
    _ = mixFinish ((x ^^^ mixSumB y vec rp) ^^^ (y ^^^ mixSumB y vec rp)) := by
      rw [mixB_eq_mixFinish, mixB_eq_mixFinish, hsum, ← mixFinish_xor]
    _ = mixFinish ((x ^^^ y) ^^^ (mixSumB y vec rp ^^^ mixSumB y vec rp)) := by
      congr 1; ac_rfl
    _ = mixFinish (x ^^^ y) := by rw [BitVec.xor_self, BitVec.xor_zero]

/-! ## Variant B: the zero vector -/

@[simp] theorem rotl64_zero (n : Nat) : rotl64 0 n = 0 := by
  simp [rotl64]

/-- Every product of the convolution is 0 (R136). -/
theorem conv_of_vec_zero {vec : Nat → Word} (h : ∀ i, i < 64 → vec i = 0) (x rp : Word) (k : Nat) :
    conv x vec rp k = 0 := by
  rw [conv, List.foldl_ext _ (fun acc _ => acc) 0 fun acc i hi => ?_, List.foldl_fixed]
  rw [h i (List.mem_range.1 hi), zero_mul, add_zero]

theorem mixSumB_of_vec_zero {vec : Nat → Word} (h : ∀ i, i < 64 → vec i = 0) (x rp : Word) :
    mixSumB x vec rp = 0#64 := by
  simp only [mixSumB, mixTermB, conv_of_vec_zero h, rotl64_zero]
  exact List.foldl_fixed' (fun _ => BitVec.xor_zero) _

/-- Settles O43: the terms are 0, which leaves the last step on the input. -/
theorem mixBOfTheZeroVector : Obligations.MixBOfTheZeroVector := by
  intro x vec rp h
  rw [mixB_eq_mixFinish, mixSumB_of_vec_zero h, BitVec.xor_zero, mixFinish]

/-! ## The command `MIX` -/

/-- With no error recorded, a command that is legal in the phase and does not look at the length runs its body
(R180 case 5). -/
theorem exec_of_legal {i : Instr} {s : State} (he : s.err = false) (hl : legalIn i s.phase = true)
    (hc : checksLength i = false) : exec i s = acceptedBody i s := by
  have haccepts : s.accepts i = true := (accepts_iff i s).2 ⟨.inl he, hl, fun h => by simp [hc] at h⟩
  rw [exec_eq_gate, gate_of_accepts i s _ haccepts]

/-- Settles O5: `MIX` is legal in every phase (R181), and its body writes `MXOUT` and `IP`. -/
theorem mixWritesOnlyMxout : Obligations.MixWritesOnlyMxout :=
  ⟨rfl, fun _ => ⟨fun he => exec_of_legal he rfl rfl, fun he => exec_of_err he nofun⟩⟩

end Sys2Proof.Machine

/-! PROOF. The Absorption Schedule (43_absorption.md R151 to R157): the load of a block, the word loop, the word
permutation, and the commands `ABSORB1` and `ABSORB`. -/

namespace Sys2Proof.Machine

open Sys2Proof

/-! ## The load of a block -/

/-- Zeros in the bytes from byte `m` on leave the word modulo `2^(8*m)`. -/
theorem toNat_packBytes_masked (f : Nat → Byte) (m : Nat) :
    (packBytes fun k => if k < m then f k else 0).toNat = (packBytes f).toNat % 2 ^ (8 * m) := by
  refine Nat.eq_of_testBit_eq fun i => ?_
  rw [Nat.testBit_mod_two_pow, BitVec.testBit_toNat, BitVec.testBit_toNat]
  by_cases hi : i < 64
  case pos =>
    have hbyte : i / 8 < m ↔ i < 8 * m := by omega
    rw [getLsbD_packBytes _ i hi, getLsbD_packBytes _ i hi]
    by_cases hm : i < 8 * m <;> simp [hbyte, hm]
  case neg => simp [BitVec.getLsbD_of_ge _ i (Nat.le_of_not_lt hi)]

/-- Settles O44: the condition of the load holds for every byte of a full block, and for a partial block it
holds for the bytes below `len - 8*index`. -/
theorem blockLoadMasksTheTail : Obligations.BlockLoadMasksTheTail := by
  refine fun s index _ => ⟨fun hfull => ?full, fun _ _ => ?tail⟩
  case full => exact packBytes_congr _ _ fun k hk => if_pos (by omega)
  case tail =>
    have hload : loadBlock s.msg8 s.len index = packBytes fun k =>
        if k < s.len.toNat - 8 * index.toNat then s.msg8 (8 * index.toNat + k) else 0 :=
      packBytes_congr _ _ fun k _ => by simp only [Nat.lt_sub_iff_add_lt']
    rw [hload, toNat_packBytes_masked, State.msgWord]

/-! ## The word loop -/

/-- `S` after the iterations `0 .. n-1` of a loop whose iteration `j` writes `f S j` to word `j`, `S` as it stands
at that moment. -/
def wordLoop (f : Vector Word 8 → Nat → Word) (S : Vector Word 8) (n : Nat) : Vector Word 8 :=
  (List.range n).foldl (fun S j => writeS S j (f S j)) S

theorem wordLoop_succ (f : Vector Word 8 → Nat → Word) (S : Vector Word 8) (n : Nat) :
    wordLoop f S (n + 1) = writeS (wordLoop f S n) n (f (wordLoop f S n) n) := by
  rw [wordLoop, List.range_succ, List.foldl_append]
  rfl

/-- The first `n` iterations write the words below `n`, each once and from what stood before its iteration. -/
theorem readS_wordLoop (f : Vector Word 8 → Nat → Word) (S : Vector Word 8) {n j : Nat} (hn : n ≤ 8)
    (hj : j < 8) :
    readS (wordLoop f S n) j = if j < n then f (wordLoop f S j) j else readS S j := by
  induction n with
  | zero => rfl
  | succ n ih =>
    rw [wordLoop_succ, readS_writeS _ _ _ _ (by omega) hj]
    obtain hlt | rfl | hgt := Nat.lt_trichotomy j n
    · rw [if_neg hlt.ne', ih (by omega), if_pos hlt, if_pos (hlt.trans n.lt_succ_self)]
    · rw [if_pos rfl, if_pos j.lt_succ_self]
    · rw [if_neg hgt.ne, ih (by omega), if_neg hgt.not_gt, if_neg (by omega)]

/-- Iteration `j` reads the old word at a position it has yet to write. -/
theorem readS_wordLoop_old (f : Vector Word 8 → Nat → Word) (S : Vector Word 8) {j k : Nat} (hk : k < 8)
    (hjk : j ≤ k) : readS (wordLoop f S j) k = readS S k := by
  rw [readS_wordLoop f S (hjk.trans hk.le) hk, if_neg hjk.not_gt]

/-- Iteration `j` reads the final word at a position the loop has already written. -/
theorem readS_wordLoop_new (f : Vector Word 8 → Nat → Word) (S : Vector Word 8) {j k : Nat} (hj : j ≤ 8)
    (hkj : k < j) : readS (wordLoop f S j) k = readS (wordLoop f S 8) k := by
  have hk : k < 8 := hkj.trans_le hj
  rw [readS_wordLoop f S hj hk, if_pos hkj, readS_wordLoop f S le_rfl hk, if_pos hk]

/-- The word iteration `j` of the absorption loop writes (R153). -/
def absorbMix (lv : Nat → Word) (var : Variant) (block index : Word) (S : Vector Word 8) (j : Nat) : Word :=
  mix var (readS S j ^^^ (block ^^^ readS S (j + 5))) lv (index + BitVec.ofNat 64 j + 1)

theorem foldl_absorbWord (lv : Nat → Word) (var : Variant) (block index : Word) (S : Vector Word 8) :
    (List.range 8).foldl (absorbWord lv var block index) S = wordLoop (absorbMix lv var block index) S 8 := rfl

/-- The partner `S[(j+5) mod 8]` of iteration `j` stands above `j` for `j < 3` and is `S[j-3]` otherwise. -/
theorem readS_wordLoop_partner (f : Vector Word 8 → Nat → Word) (S : Vector Word 8) {j : Nat} (hj : j < 8) :
    readS (wordLoop f S j) (j + 5) =
      if j < 3 then readS S (j + 5) else readS (wordLoop f S 8) (j - 3) := by
  split
  next hlow => exact readS_wordLoop_old f S (by omega) (by omega)
  next hhigh =>
    have hmod : (j + 5) % 8 = j - 3 := by omega
    rw [readS_mod, hmod, readS_wordLoop_new f S hj.le (by omega)]

/-- Settles O46: iteration `j` finds its own word unwritten and its partner as it then stands. -/
theorem absorptionLoopIsInPlace : Obligations.AbsorptionLoopIsInPlace := by
  rintro lv var block index S S' rfl j hj
  refine ⟨?word, fun hindex => by bv_omega⟩
  case word =>
    rw [foldl_absorbWord, readS_wordLoop _ S le_rfl hj, if_pos hj, absorbMix, readS_wordLoop_old _ S hj le_rfl,
      readS_wordLoop_partner _ S hj]

/-! ## The word permutation -/

/-- Two word permutations exchange the halves of the low and of the high four words. -/
theorem permuteWords_permuteWords (S : Vector Word 8) :
    permuteWords (permuteWords S) = #v[S[2], S[3], S[0], S[1], S[6], S[7], S[4], S[5]] := rfl

/-- Settles O45: each position is read off the definition, and the square of the permutation is its own inverse. -/
theorem wordPermutationHasOrderFour : Obligations.WordPermutationHasOrderFour := by
  refine fun S => ⟨⟨rfl, rfl, rfl, rfl, rfl, rfl, rfl, rfl⟩, ?order⟩
  case order =>
    rw [permuteWords_permuteWords S, permuteWords_permuteWords]
    refine Vector.ext fun i hi => ?_
    interval_cases i <;> rfl

/-! ## The command `ABSORB1` -/

/-- The block `ORD[T]` absorbed (R156). -/
def State.absorbNext (s : State) : State := s.absorbAt (s.ordWord s.t.toNat)

theorem exec_absorb1 {s : State} (he : s.err = false) (hp : s.phase = .permuted)
    (ht : s.t.toNat < s.par.msgWords) (hw : (s.ordWord s.t.toNat).toNat < s.par.msgWords) :
    exec .absorb1 s = .next s.absorbNext.complete := by
  rw [exec_of_legal (i := .absorb1) he (decide_eq_true hp) rfl, acceptedBody, absorbStep_eq ht hw, andThen_next,
    State.absorbNext]

/-- Settles O6: in PERMUTED the body absorbs the block; in any other phase `ABSORB1` is refused. -/
theorem absorbOneBlock : Obligations.AbsorbOneBlock := by
  refine ⟨rfl, fun s he => ⟨fun hp ht hw => ?permuted, fun hp => exec_of_not_legal he (decide_eq_false hp)⟩⟩
  case permuted =>
    rw [exec_absorb1 he hp ht hw, ← hp]
    rfl

/-! ## The command `ABSORB` -/

/-- An absorption under way or at its end, with every access still to come inside the memories (R31, R70). -/
structure State.Absorbing (s : State) : Prop where
  t_le : s.t.toNat ≤ s.bcnt.toNat
  fits : s.bcnt.toNat ≤ s.par.msgWords
  inside : ∀ k, s.t.toNat ≤ k → k < s.bcnt.toNat → (s.ordWord k).toNat < s.par.msgWords
  phase : s.phase = if s.t = s.bcnt then .absorbed else .permuted

/-- The blocks still to absorb. -/
def State.blocksLeft (s : State) : Nat := s.bcnt.toNat - s.t.toNat

/-- All remaining blocks absorbed, in the order of `ORD` (R157). -/
def State.absorbRest (s : State) : State :=
  { s with
    sreg := ((List.range' s.t.toNat s.blocksLeft).map s.ordWord).foldl
      (absorbBlock (Params.lv s.par) s.var s.msg8 s.len) s.sreg
    t := s.bcnt
    phase := .absorbed }

namespace State.Absorbing

variable {s : State}

theorem complete (h : s.Absorbing) : s.complete.Absorbing := ⟨h.t_le, h.fits, h.inside, h.phase⟩

theorem phase_permuted (h : s.Absorbing) (hleft : 0 < s.blocksLeft) : s.phase = .permuted := by
  have hne : s.t ≠ s.bcnt := fun heq => by simp [State.blocksLeft, heq] at hleft
  rw [h.phase, if_neg hne]

theorem t_eq (h : s.Absorbing) (hleft : s.blocksLeft = 0) : s.t = s.bcnt :=
  BitVec.eq_of_toNat_eq (h.t_le.antisymm (Nat.le_of_sub_eq_zero hleft))

theorem phase_absorbed (h : s.Absorbing) (hleft : s.blocksLeft = 0) : s.phase = .absorbed := by
  rw [h.phase, if_pos (h.t_eq hleft)]

theorem t_lt_msgWords (h : s.Absorbing) (hleft : 0 < s.blocksLeft) : s.t.toNat < s.par.msgWords :=
  (Nat.lt_of_sub_pos hleft).trans_le h.fits

theorem block_lt_msgWords (h : s.Absorbing) (hleft : 0 < s.blocksLeft) :
    (s.ordWord s.t.toNat).toNat < s.par.msgWords :=
  h.inside s.t.toNat le_rfl (Nat.lt_of_sub_pos hleft)

end State.Absorbing

/-- `T` counts below `BCNT` without wrapping. -/
theorem absorbNext_t_toNat {s : State} (hleft : 0 < s.blocksLeft) :
    s.absorbNext.t.toNat = s.t.toNat + 1 := by
  have hlt : s.t.toNat < s.bcnt.toNat := Nat.lt_of_sub_pos hleft
  have ht : s.absorbNext.t = s.t + 1 := rfl
  bv_omega

theorem blocksLeft_absorbNext {s : State} (hleft : 0 < s.blocksLeft) :
    s.blocksLeft = s.absorbNext.blocksLeft + 1 := by
  have hlt : s.t.toNat < s.bcnt.toNat := Nat.lt_of_sub_pos hleft
  have hbcnt : s.absorbNext.bcnt = s.bcnt := rfl
  rw [State.blocksLeft, State.blocksLeft, absorbNext_t_toNat hleft, hbcnt]
  omega

theorem State.Absorbing.absorbNext {s : State} (h : s.Absorbing) (hleft : 0 < s.blocksLeft) :
    s.absorbNext.Absorbing := by
  have hlt : s.t.toNat < s.bcnt.toNat := Nat.lt_of_sub_pos hleft
  refine ⟨?_, h.fits, fun k hk => h.inside k ?_, ?_⟩
  · rw [absorbNext_t_toNat hleft]; exact hlt
  · rw [absorbNext_t_toNat hleft] at hk; omega
  · rw [← h.phase_permuted hleft]; rfl

/-- With no block left there is nothing to do. -/
theorem State.Absorbing.absorbRest_eq_self {s : State} (h : s.Absorbing) (hleft : s.blocksLeft = 0) :
    s.absorbRest = s := by
  rw [State.absorbRest, hleft, ← h.t_eq hleft, ← h.phase_absorbed hleft]
  rfl

/-- The remaining blocks are the next one and those that remain after it. -/
theorem absorbRest_absorbNext {s : State} (hleft : 0 < s.blocksLeft) :
    s.absorbNext.absorbRest = s.absorbRest := by
  rw [State.absorbRest, State.absorbRest, absorbNext_t_toNat hleft, blocksLeft_absorbNext hleft,
    List.range'_succ, List.map_cons, List.foldl_cons]
  rfl

/-- The loop of R157 absorbs all remaining blocks when it has an iteration for each. -/
theorem absorbLoop_eq_absorbRest {n : Nat} {s : State} (h : s.Absorbing) (hn : s.blocksLeft ≤ n) :
    absorbLoop n s = .next s.absorbRest := by
  induction n generalizing s with
  | zero => rw [h.absorbRest_eq_self (Nat.le_zero.1 hn), absorbLoop]
  | succ n ih =>
    rw [absorbLoop]
    obtain hleft | hleft := s.blocksLeft.eq_zero_or_pos
    · rw [if_neg (by simp [h.phase_absorbed hleft]), h.absorbRest_eq_self hleft]
    · have hnext : s.absorbNext.blocksLeft ≤ n :=
        Nat.le_of_succ_le_succ ((blocksLeft_absorbNext hleft).ge.trans hn)
      rw [if_pos (h.phase_permuted hleft), absorbStep_eq (h.t_lt_msgWords hleft) (h.block_lt_msgWords hleft),
        andThen_next, ← absorbRest_absorbNext hleft]
      exact ih (h.absorbNext hleft) hnext

theorem execRepeat_absorb1_succ (n : Nat) {s : State} (he : s.err = false) (h : s.Absorbing)
    (hleft : 0 < s.blocksLeft) :
    execRepeat .absorb1 (n + 1) s = execRepeat .absorb1 n s.absorbNext.complete := by
  rw [execRepeat, exec_absorb1 he (h.phase_permuted hleft) (h.t_lt_msgWords hleft) (h.block_lt_msgWords hleft),
    andThen_next]

/-- With `IP` set already, `ABSORB1` once for each of the remaining blocks absorbs them all. -/
theorem execRepeat_absorb1_complete {n : Nat} {s : State} (he : s.err = false) (h : s.Absorbing)
    (hn : s.blocksLeft = n) : execRepeat .absorb1 n s.complete = .next s.absorbRest.complete := by
  induction n generalizing s with
  | zero => rw [h.absorbRest_eq_self hn, execRepeat]
  | succ n ih =>
    have hleft : 0 < s.blocksLeft := hn ▸ n.succ_pos
    have hnext : s.absorbNext.blocksLeft = n := Nat.succ.inj ((blocksLeft_absorbNext hleft).symm.trans hn)
    rw [execRepeat_absorb1_succ n (s := s.complete) he h.complete hleft, ← absorbRest_absorbNext hleft]
    exact ih (s := s.absorbNext) he (h.absorbNext hleft) hnext

/-- `ABSORB1` once for each of the remaining blocks, of which there is at least one, absorbs them all and sets
`IP` (R157). -/
theorem execRepeat_absorb1 {s : State} (he : s.err = false) (h : s.Absorbing) (hleft : 0 < s.blocksLeft) :
    execRepeat .absorb1 s.blocksLeft s = .next s.absorbRest.complete := by
  rw [blocksLeft_absorbNext hleft, execRepeat_absorb1_succ _ he h hleft, ← absorbRest_absorbNext hleft]
  exact execRepeat_absorb1_complete (s := s.absorbNext) he (h.absorbNext hleft) rfl

theorem exec_absorb {s : State} (he : s.err = false) (hp : s.phase = .permuted ∨ s.phase = .absorbed) :
    exec .absorb s = andThen (absorbBody s) fun u => .next u.complete :=
  exec_of_legal he (by simpa [legalIn] using hp) rfl

/-- Settles O7: the loop and the repeated `ABSORB1` both absorb all remaining blocks; in ABSORBED the loop does not
run, and elsewhere `ABSORB` is refused. -/
theorem absorbTakesAllRemainingBlocks : Obligations.AbsorbTakesAllRemainingBlocks := by
  refine ⟨rfl, fun s he => ⟨fun hp ht hcap hinside => ?permuted, fun hp => ?absorbed, fun hnp hna =>
    exec_of_not_legal he (by simp [legalIn, hnp, hna])⟩⟩
  case permuted =>
    have hne : s.t ≠ s.bcnt := fun heq => ht.ne (congrArg BitVec.toNat heq)
    have h : s.Absorbing := ⟨ht.le, hcap, hinside, by rw [hp, if_neg hne]⟩
    have hcount : s.blocksLeft ≤ s.par.msgWords + 1 := (Nat.sub_le _ _).trans (hcap.trans (Nat.le_succ _))
    refine ⟨s.absorbRest.complete, ?_, execRepeat_absorb1 he h (Nat.sub_pos_of_lt ht), rfl⟩
    rw [exec_absorb he (.inl hp), absorbBody, absorbLoop_eq_absorbRest h hcount, andThen_next]
  case absorbed =>
    rw [exec_absorb he (.inr hp), absorbBody, absorbLoop, if_neg (by simp [hp])]
    rfl

end Sys2Proof.Machine

/-! PROOF. The Finalization Schedule (44_finalization.md R166 to R170): the word loop of a round, and the commands
`FROUND` and `FINAL`. -/

namespace Sys2Proof.Machine

open Sys2Proof

/-! ## The word loop of a round -/

/-- The word iteration `j` of the word loop of round `r` writes (R166). -/
def finalMix (lv : Nat → Word) (var : Variant) (r : Word) (S : Vector Word 8) (j : Nat) : Word :=
  mix var (readS S j ^^^ readS S (j + 2)) lv (r + BitVec.ofNat 64 j)

theorem foldl_finalWord (lv : Nat → Word) (var : Variant) (r : Word) (S : Vector Word 8) :
    (List.range 8).foldl (finalWord lv var r) S = wordLoop (finalMix lv var r) S 8 := rfl

/-- Iteration `j` finds the word `d` places on, modulo 8, still old where that place lies above `j`, and as the loop
leaves it where the place has wrapped around to one below `j`. -/
theorem readS_wordLoop_ahead (f : Vector Word 8 → Nat → Word) (S : Vector Word 8) {d j : Nat} (hd : d < 8)
    (hj : j < 8) :
    readS (wordLoop f S j) (j + d) =
      if j < 8 - d then readS S (j + d) else readS (wordLoop f S 8) (j - (8 - d)) := by
  split
  next habove => exact readS_wordLoop_old f S (by omega) (by omega)
  next hwrapped =>
    have hmod : (j + d) % 8 = j - (8 - d) := by omega
    rw [readS_mod, hmod, readS_wordLoop_new f S hj.le (by omega)]

/-- Settles O47: iteration `j` finds its own word unwritten and its partner, two places on, as it then stands. -/
theorem finalizationLoopIsInPlace : Obligations.FinalizationLoopIsInPlace := by
  rintro lv var r S S' rfl j hj
  rw [foldl_finalWord, readS_wordLoop _ S le_rfl hj, if_pos hj, finalMix, readS_wordLoop_old _ S hj le_rfl,
    readS_wordLoop_ahead _ S (by decide) hj]

/-! ## The command `FROUND` -/

theorem exec_fround {s : State} (he : s.err = false) (hp : s.phase = .absorbed) :
    exec .fround s = .next s.finalStep.complete :=
  exec_of_legal (i := .fround) he (decide_eq_true hp) rfl

/-- Settles O8: in ABSORBED the body runs round `RND`; in any other phase `FROUND` is refused. -/
theorem froundRunsOneRound : Obligations.FroundRunsOneRound := by
  refine ⟨rfl, fun s he => ⟨fun hp => ?absorbed, fun hp => exec_of_not_legal he (decide_eq_false hp)⟩⟩
  case absorbed =>
    rw [exec_fround he hp, ← hp]
    rfl

/-! ## The rounds left

In ABSORBED a round is either the last one, which ends the finalization, or leaves one round fewer. -/

/-- The next round is the last one (R169). -/
def State.lastRound (s : State) : Prop := s.rnd + 1 = BitVec.ofNat 32 s.rounds

theorem roundsLeft_of_lastRound {s : State} (h : s.lastRound) : s.roundsLeft = 1 := by
  rw [State.lastRound] at h
  rw [State.roundsLeft]
  bv_omega

theorem roundsLeft_finalStep {s : State} (h : ¬ s.lastRound) : s.roundsLeft = s.finalStep.roundsLeft + 1 := by
  rw [State.lastRound] at h
  rw [State.roundsLeft, State.roundsLeft, State.finalStep_rounds, State.finalStep_rnd]
  bv_omega

theorem finalStep_phase_of_lastRound {s : State} (h : s.lastRound) : s.finalStep.phase = .done := if_pos h

theorem finalStep_phase_of_not_lastRound {s : State} (h : ¬ s.lastRound) : s.finalStep.phase = s.phase := if_neg h

/-- Induction along the rounds left in ABSORBED, from the last round backwards. -/
theorem rounds_induction {motive : (s : State) → s.phase = .absorbed → Prop}
    (last : ∀ s hp, s.lastRound → motive s hp)
    (more : ∀ s hp (hmore : ¬ s.lastRound),
      motive s.finalStep ((finalStep_phase_of_not_lastRound hmore).trans hp) → motive s hp)
    (s : State) (hp : s.phase = .absorbed) : motive s hp := by
  induction hn : s.roundsLeft using Nat.strong_induction_on generalizing s with
  | _ n ih =>
    by_cases hlast : s.lastRound
    · exact last s hp hlast
    · have hleft : s.roundsLeft = s.finalStep.roundsLeft + 1 := roundsLeft_finalStep hlast
      have hless : s.finalStep.roundsLeft < n := by omega
      exact more s hp hlast (ih _ hless _ _ rfl)

/-! ## The loop of `FINAL` -/

/-- The loop of R170 does not run outside ABSORBED. -/
theorem finalize_of_not_absorbed {s : State} (hp : s.phase ≠ .absorbed) : s.finalize = s := by
  rw [State.finalize, State.roundsLeft, finalLoop, if_neg hp]

theorem finalize_of_lastRound {s : State} (hp : s.phase = .absorbed) (h : s.lastRound) :
    s.finalize = s.finalStep := by
  rw [State.finalize, roundsLeft_of_lastRound h, finalLoop, if_pos hp, finalLoop]

theorem finalize_finalStep {s : State} (hp : s.phase = .absorbed) (h : ¬ s.lastRound) :
    s.finalize = s.finalStep.finalize := by
  rw [State.finalize, roundsLeft_finalStep h, finalLoop, if_pos hp, State.finalize]

/-- The rounds `RND .. R(VAR)-1` done in that order (R170). -/
def State.finalRest (s : State) : State :=
  { s with
    sreg := (List.range' s.rnd.toNat s.roundsLeft).foldl (finalRound (Params.lv s.par) s.var) s.sreg
    rnd := BitVec.ofNat 32 s.rounds
    phase := .done }

theorem finalRest_of_lastRound {s : State} (h : s.lastRound) : s.finalRest = s.finalStep := by
  rw [State.finalRest, roundsLeft_of_lastRound h, ← finalStep_phase_of_lastRound h, ← h]
  rfl

/-- The rounds left are the next one and, `RND` not wrapping, those left after it. -/
theorem finalRest_finalStep {s : State} (h : ¬ s.lastRound) (hrnd : s.finalStep.rnd.toNat = s.rnd.toNat + 1) :
    s.finalStep.finalRest = s.finalRest := by
  rw [State.finalRest, State.finalRest, roundsLeft_finalStep h, hrnd, List.range'_succ, List.foldl_cons]
  rfl

/-- Below a 32-bit `R(VAR)` a round that is not the last one counts `RND` without wrapping. -/
theorem finalStep_rnd_toNat {s : State} (hlt : s.rnd.toNat < s.rounds) (hrange : s.rounds < 2 ^ 32)
    (h : ¬ s.lastRound) : s.finalStep.rnd.toNat = s.rnd.toNat + 1 ∧ s.finalStep.rnd.toNat < s.rounds := by
  rw [State.lastRound] at h
  rw [State.finalStep_rnd]
  constructor <;> bv_omega

theorem finalize_eq_finalRest {s : State} (hp : s.phase = .absorbed) (hlt : s.rnd.toNat < s.rounds)
    (hrange : s.rounds < 2 ^ 32) : s.finalize = s.finalRest := by
  induction s, hp using rounds_induction with
  | last s hp hlast => rw [finalize_of_lastRound hp hlast, finalRest_of_lastRound hlast]
  | more s hp hmore ih =>
    obtain ⟨hrnd, hnext⟩ := finalStep_rnd_toNat hlt hrange hmore
    rw [finalize_finalStep hp hmore, ih hnext hrange, finalRest_finalStep hmore hrnd]

/-! ## `FROUND` repeated -/

theorem execRepeat_fround_succ (n : Nat) {s : State} (he : s.err = false) (hp : s.phase = .absorbed) :
    execRepeat .fround (n + 1) s = execRepeat .fround n s.finalStep.complete := by
  rw [execRepeat, exec_fround he hp, andThen_next]

/-- Whether `IP` is set already makes no difference to a repeated `FROUND`, which sets it. -/
theorem execRepeat_fround_complete (n : Nat) {s : State} (he : s.err = false) (hp : s.phase = .absorbed) :
    execRepeat .fround (n + 1) s.complete = execRepeat .fround (n + 1) s := by
  rw [execRepeat_fround_succ n he hp, execRepeat_fround_succ n (s := s.complete) he hp]
  rfl

/-- `FROUND` once for each of the rounds left has the effect of the loop of R170. -/
theorem execRepeat_fround {s : State} (he : s.err = false) (hp : s.phase = .absorbed) :
    execRepeat .fround s.roundsLeft s = .next s.finalize.complete := by
  induction s, hp using rounds_induction with
  | last s hp hlast =>
    rw [roundsLeft_of_lastRound hlast, execRepeat_fround_succ 0 he hp, finalize_of_lastRound hp hlast, execRepeat]
  | more s hp hmore ih =>
    have hnext : s.finalStep.phase = .absorbed := (finalStep_phase_of_not_lastRound hmore).trans hp
    calc execRepeat .fround s.roundsLeft s
        = execRepeat .fround s.finalStep.roundsLeft s.finalStep.complete := by
          rw [roundsLeft_finalStep hmore, execRepeat_fround_succ _ he hp]
      _ = execRepeat .fround s.finalStep.roundsLeft s.finalStep := execRepeat_fround_complete _ he hnext
      _ = .next s.finalize.complete := by rw [ih he, finalize_finalStep hp hmore]

/-! ## The command `FINAL` -/

theorem exec_final {s : State} (he : s.err = false) (hp : s.phase = .absorbed ∨ s.phase = .done) :
    exec .final s = .next s.finalize.complete :=
  exec_of_legal (i := .final) he (by simpa [legalIn] using hp) rfl

/-- Below a 32-bit `R(VAR)` the rounds left are `R(VAR) - RND` (R32). -/
theorem roundsLeft_of_lt {s : State} (hlt : s.rnd.toNat < s.rounds) (hrange : s.rounds < 2 ^ 32) :
    s.roundsLeft = s.rounds - s.rnd.toNat := by
  rw [State.roundsLeft]
  bv_omega

/-- Settles O9: the loop and the repeated `FROUND` both run the rounds left; in DONE the loop does not run, and
elsewhere `FINAL` is refused. -/
theorem finalRunsAllRemainingRounds : Obligations.FinalRunsAllRemainingRounds := by
  refine ⟨rfl, fun s he => ⟨fun hp hlt hrange => ?absorbed, fun hp => ?done, fun hna hnd =>
    exec_of_not_legal he (by simp [legalIn, hna, hnd])⟩⟩
  case absorbed =>
    rw [← roundsLeft_of_lt hlt hrange]
    refine ⟨s.finalize.complete, exec_final he (.inl hp), execRepeat_fround he hp, ?_⟩
    rw [finalize_eq_finalRest hp hlt hrange]
    rfl
  case done =>
    rw [exec_final he (.inr hp), finalize_of_not_absorbed (by simp [hp])]
    rfl

end Sys2Proof.Machine

/-! PROOF. The control (45_control.md): the life of a command (R180), the commands `NOP`, `INIT` and `CLR` (R182 to
R184), `HASH` (R185), the digest (R186, R190) and the phase moves (R188). -/

namespace Sys2Proof.Machine

open Sys2Proof

/-! ## The life of a command -/

theorem encode_eq_clr_iff (i : Instr) : encode i = encode .clr ↔ i = .clr := by
  rw [← decode_eq_ok_iff_eq_encode, decode_encode, Except.ok.injEq]

/-- R180: the word of a command leaves it in execution where it is accepted and an early input follows, and otherwise
runs it; cases 1, 3 and 4 are then the command's own. -/
theorem issue_encode_eq_ite (s : State) (i : Instr) :
    issue s (encode i) =
      if s.accepts i && s.nextIsEarly then .next { s with running := some i } else exec i s := by
  rw [issue]
  split
  next hignored =>
    simp only [Bool.and_eq_true, decide_eq_true_eq, ne_eq, encode_eq_clr_iff] at hignored
    obtain ⟨he, hi⟩ := hignored
    have haccepts : s.accepts i = false := by simp [State.accepts, State.ignores, he, hi]
    rw [haccepts, exec_of_err he hi]
    rfl
  next => rw [decode_encode]

/-- With no command in execution, a waiting write to `CMD` is answered `ok` and its word issued. -/
theorem step_of_write_cmd {s : State} {cw : Word} {early : Bool} {rest : List Input} (hr : s.running = none)
    (hi : s.inbox = { event := .access (.write 0x30 8 cw), early := early } :: rest) :
    step s = issue { s with inbox := rest, resp := some .ok } cw := by
  calc step s
    _ = step { s with inbox := { event := .access (.write 0x30 8 cw), early := early } :: rest } := by rw [← hi]
    _ = hostWrite { s with inbox := rest } (offsetOf .cmd) 8 cw := by
      rw [step_of_access hr, serve_write (s := { s with inbox := rest }) _ _ _ hr]; rfl
    _ = issue { s with inbox := rest, resp := some .ok } cw := hostWrite_cmd _ _

/-- Settles O21: the word is the command's own, and with no early input after it the port runs the command. -/
theorem stepRunsTheDecodedCommand : Obligations.StepRunsTheDecodedCommand := by
  intro s cw i early rest hr hi hdecode _ hearly
  obtain rfl : cw = encode i := (decode_eq_ok_iff_eq_encode cw i).1 hdecode
  have hlate : ({ s with inbox := rest, resp := some .ok } : State).nextIsEarly = false := hearly
  rw [step_of_write_cmd hr hi, issue_encode_eq_ite, hlate, Bool.and_false]
  rfl

/-- Settles O22: an early input after the word of an accepted command keeps it in execution, and the first step that
no early input comes before carries it out. -/
theorem commandStaysInExecution : Obligations.CommandStaysInExecution := by
  refine ⟨fun s i early e rest hr hi he ha => ?stays, fun _ _ => step_of_last⟩
  case stays =>
    have haccepts : ({ s with inbox := e :: rest, resp := some .ok } : State).accepts i = true := ha
    have hearly : ({ s with inbox := e :: rest, resp := some .ok } : State).nextIsEarly = true := he
    rw [step_of_write_cmd hr hi, issue_encode_eq_ite, haccepts, hearly, hr]
    rfl

/-! ## `NOP`, `INIT` and `CLR` -/

/-- With no error recorded, a command that looks at the length of a message that fits runs its body (R180 case 5). -/
theorem exec_of_fits {i : Instr} {s : State} (he : s.err = false) (hl : legalIn i s.phase = true)
    (hf : s.fits = true) : exec i s = acceptedBody i s := by
  have haccepts : s.accepts i = true := (accepts_iff i s).2 ⟨.inl he, hl, fun _ => (fits_iff s).1 hf⟩
  rw [exec_eq_gate, gate_of_accepts i s _ haccepts]

/-- A command that looks at the length of a message that does not fit is refused with `E_LEN` (R180 case 4, R204). -/
theorem exec_of_not_fits {i : Instr} {s : State} (he : s.err = false) (hl : legalIn i s.phase = true)
    (hc : checksLength i = true) (hf : s.par.msgWords < s.bcnt.toNat) :
    exec i s = .next (s.raiseError .len (encode i)) := by
  have hignored : s.ignores i = false := by simp [State.ignores, he]
  have hfits : s.fits = false := decide_eq_false hf.not_ge
  rw [exec_eq_gate, gate, hignored, hl, hc, hfits]
  rfl

/-- Settles O1: `NOP` is legal in every phase (R181), and its body sets `IP`. -/
theorem nopSetsOnlyIp : Obligations.NopSetsOnlyIp :=
  ⟨rfl, fun _ => ⟨fun he => exec_of_legal he rfl rfl, fun he => exec_of_err he nofun⟩⟩

theorem exec_init {s : State} (he : s.err = false) (hf : s.fits = true) :
    exec .init s = .next s.begin.complete := exec_of_fits he rfl hf

/-- Settles O2: `INIT` is legal in every phase (R181), so that only the length decides. -/
theorem initBeginsComputation : Obligations.InitBeginsComputation :=
  ⟨rfl, fun s he => ⟨fun hf => exec_init he ((fits_iff s).2 hf), exec_of_not_fits he rfl rfl⟩⟩

/-- Settles O11: `CLR` is accepted in every state (R180, R181). -/
theorem clrReturnsFromError : Obligations.ClrReturnsFromError := by
  refine ⟨rfl, fun s => ?clears⟩
  case clears =>
    have haccepts : s.accepts .clr = true := (accepts_iff .clr s).2 ⟨.inr rfl, rfl, nofun⟩
    rw [exec_eq_gate, gate_of_accepts .clr s _ haccepts]
    rfl

/-! ## The digest -/

/-- Settles O48: the block load is the one place where the bytes enter, and it masks those at or beyond `len`. -/
theorem digestDependsOnTheMessageOnly : Obligations.DigestDependsOnTheMessageOnly :=
  fun p var _ _ _ h => digestOf_congr p var h

/-- Settles O56: the invariant of a run says in DONE what `S` is. -/
theorem doneHoldsTheDigest : Obligations.DoneHoldsTheDigest := by
  intro s hreach hdone
  obtain ⟨-, -, -, -, -, -, -, hphase⟩ := hreach.inv
  exact sreg_of_done hphase hdone

/-! ## `HASH` -/

/-- The effect of the four bodies of `HASH` in a row, and of its completion (R185). -/
def State.hashed (s : State) : State := s.begin.permute.absorbRest.finalRest.complete

/-- `SHUFFLE` leaves a phase in which `ABSORB` is legal (R124, R181). -/
theorem State.permute_phase_cases (s : State) : s.permute.phase = .permuted ∨ s.permute.phase = .absorbed := by
  rw [State.permute_phase]
  split
  · exact .inr rfl
  · exact .inl rfl

/-- After `INIT` and `SHUFFLE` every access of the absorption lies inside the memories (R70). -/
theorem absorbing_begin_permute {s : State} (hf : s.fits = true) : s.begin.permute.Absorbing where
  t_le := Nat.zero_le _
  fits := (fits_iff s).1 hf
  inside := fun _ _ hk => (toNat_ordWord_lt s.begin.permute_orderHolds hk).trans_le ((fits_iff s).1 hf)
  phase := by
    rw [State.permute_phase, State.permute_t, State.begin_t, State.permute_bcnt]
    exact if_congr eq_comm rfl rfl

/-- An absorption within `MSG_WORDS` ends before the iterations of its loop do. -/
theorem absorbBody_eq_absorbRest {s : State} (h : s.Absorbing) : absorbBody s = .next s.absorbRest :=
  absorbLoop_eq_absorbRest h ((Nat.sub_le _ _).trans (h.fits.trans (Nat.le_succ _)))

/-- From round 0 the finalization runs all rounds. -/
theorem finalize_of_rnd_zero {s : State} (hwf : Params.wf s.par = true) (hp : s.phase = .absorbed)
    (hrnd : s.rnd = 0) : s.finalize = s.finalRest := by
  obtain ⟨hpos, hrange⟩ := State.rounds_range hwf
  exact finalize_eq_finalRest hp (by rw [hrnd]; exact hpos) hrange

theorem exec_hash {s : State} (hwf : Params.wf s.par = true) (he : s.err = false) (hf : s.fits = true) :
    exec .hash s = .next s.hashed := by
  rw [exec_of_fits he rfl hf, acceptedBody, shuffleBody_of_fits (s := s.begin) hf, andThen_next,
    absorbBody_eq_absorbRest (absorbing_begin_permute hf), andThen_next,
    finalize_of_rnd_zero (s := s.begin.permute.absorbRest) hwf rfl rfl, State.hashed]

/-- The four commands one after another set `IP` four times where `HASH` sets it once. -/
theorem execAll_hash {s : State} (hwf : Params.wf s.par = true) (he : s.err = false) (hf : s.fits = true) :
    execAll [.init, .shuffle, .absorb, .final] s = .next s.hashed := by
  have hshuffle : exec .shuffle s.begin.complete = .next s.begin.permute.complete :=
    exec_shuffle_of_ready (s := s.begin.complete) he rfl hf
  have habsorbing : s.begin.permute.complete.Absorbing := (absorbing_begin_permute hf).complete
  have habsorb : exec .absorb s.begin.permute.complete = .next s.begin.permute.absorbRest.complete := by
    rw [exec_absorb (s := s.begin.permute.complete) he s.begin.permute_phase_cases,
      absorbBody_eq_absorbRest habsorbing, andThen_next]
    rfl
  have hfinal : exec .final s.begin.permute.absorbRest.complete = .next s.hashed := by
    rw [exec_final (s := s.begin.permute.absorbRest.complete) he (.inl rfl),
      finalize_of_rnd_zero (s := s.begin.permute.absorbRest.complete) hwf rfl rfl]
    rfl
  rw [execAll, exec_init he hf, andThen_next, execAll, hshuffle, andThen_next, execAll, habsorb, andThen_next,
    execAll, hfinal, andThen_next, execAll]

/-- `HASH` ends in DONE with what DONE says of `S` (R185, R190). -/
theorem hashed_sreg {s : State} (hwf : Params.wf s.par = true) (he : s.err = false) (hf : s.fits = true) :
    s.hashed.sreg = digest s.par s.var s.message := by
  obtain ⟨t, ht, hdone, hholds⟩ := exec_hash_done hwf he hf
  rw [exec_hash hwf he hf] at ht
  cases ht
  exact sreg_of_done hholds hdone

/-- Of `HASH` all but `S` is written outright (R87). -/
theorem State.hashed_writes (s : State) :
    ∃ S, s.hashed = { s with
      sreg := S
      ord := Memory.putIndices s.ord 0 s.shuffled.1
      ks := s.shuffled.2
      t := s.bcnt
      rnd := BitVec.ofNat 32 s.rounds
      phase := .done
      ip := true } := ⟨_, rfl⟩

theorem hashed_eq {s : State} (hwf : Params.wf s.par = true) (he : s.err = false) (hf : s.fits = true) :
    s.hashed = { s with
      sreg := digest s.par s.var s.message
      ord := s.hashed.ord
      ks := s.shuffled.2
      t := s.bcnt
      rnd := BitVec.ofNat 32 s.rounds
      phase := .done
      ip := true } := by
  obtain ⟨S, hS⟩ := s.hashed_writes
  rw [← hashed_sreg hwf he hf, hS]

/-- Settles O10: `HASH` and the four commands both answer `State.hashed`, in which `S` is the digest and `ORD` reads
back as the order; a message that does not fit is refused. -/
theorem hashComputesTheDigest : Obligations.HashComputesTheDigest := by
  refine ⟨rfl, fun s he hwf => ⟨fun hf => ?fits, exec_of_not_fits he rfl rfl⟩⟩
  case fits =>
    have hfits : s.fits = true := (fits_iff s).2 hf
    refine ⟨s.hashed, exec_hash hwf he hfits, execAll_hash hwf he hfits, s.begin.permute_orderHolds,
      fun _ => byte?_putIndices_shuffled, hashed_eq hwf he hfits⟩

/-! ## The phase moves

The loops of `ABSORB` and `FINAL` end only where `T` meets `BCNT` and `RND` meets `R(VAR)`, in unreachable states too
(log 13). -/

/-- The loop of R157 does not run outside PERMUTED. -/
theorem absorbLoop_of_not_permuted (n : Nat) {s : State} (hp : s.phase ≠ .permuted) :
    absorbLoop n s = .next s := by
  cases n with
  | zero => rfl
  | succ n => rw [absorbLoop, if_neg hp]

/-- From PERMUTED the absorption loop ends in ABSORBED with `T = BCNT`, or has used up its iterations, each one at a
`T` below `MSG_WORDS` that the next block did not bring to `BCNT`. -/
theorem absorbLoop_ends {n : Nat} {s t : State} (hp : s.phase = .permuted) (h : absorbLoop n s = .next t) :
    (t.phase = .absorbed ∧ t.t = s.bcnt) ∨
      ∀ k < n, (s.t + BitVec.ofNat 64 k).toNat < s.par.msgWords ∧ s.t + BitVec.ofNat 64 (k + 1) ≠ s.bcnt := by
  induction n generalizing s with
  | zero => exact .inr nofun
  | succ n ih =>
    rw [absorbLoop, if_pos hp] at h
    obtain ⟨u, hu, hrest⟩ := (andThen_eq_next _ _ _).1 h
    obtain ⟨hlt, -, rfl⟩ := absorbStep_next s u hu
    by_cases hlast : s.t + 1 = s.bcnt
    case pos =>
      have hphase : (s.absorbAt (s.ordWord s.t.toNat)).phase = .absorbed := if_pos hlast
      rw [absorbLoop_of_not_permuted n (ne_of_eq_of_ne hphase nofun)] at hrest
      cases hrest
      exact .inl ⟨hphase, hlast⟩
    case neg =>
      refine (ih ((if_neg hlast).trans hp) hrest).imp_right fun hmore k hk => ?_
      cases k with
      | zero => exact ⟨by simpa using hlt, hlast⟩
      | succ k =>
        obtain ⟨hbelow, hne⟩ := hmore k (Nat.lt_of_succ_lt_succ hk)
        have hcount (m : Nat) : s.t + 1 + BitVec.ofNat 64 m = s.t + BitVec.ofNat 64 (m + 1) := by
          rw [BitVec.ofNat_add, add_assoc, add_comm 1]; rfl
        rw [State.absorbAt_t, hcount] at hbelow hne
        exact ⟨hbelow, hne⟩

/-- Counting up from any `T`, one of `MSG_WORDS + 1` steps leaves `MSG_WORDS` behind or meets `BCNT`. -/
theorem exists_step_beyond (t bcnt : Word) (n : Nat) :
    ∃ k < n + 1, n ≤ (t + BitVec.ofNat 64 k).toNat ∨ t + BitVec.ofNat 64 (k + 1) = bcnt := by
  by_cases hsmall : n < 2 ^ 64
  case pos => exact ⟨n - t.toNat, by omega, .inl (by rw [BitVec.toNat_add, BitVec.toNat_ofNat]; omega)⟩
  case neg => exact ⟨(bcnt - t - 1).toNat, by omega, .inr (by bv_omega)⟩

/-- R157: from PERMUTED, where it does not stop, the absorption ends in ABSORBED with every block absorbed. -/
theorem absorbBody_ends {s t : State} (hp : s.phase = .permuted) (h : absorbBody s = .next t) :
    t.phase = .absorbed ∧ t.t = s.bcnt := by
  obtain hend | hall := absorbLoop_ends hp h
  · exact hend
  · obtain ⟨k, hk, hbeyond⟩ := exists_step_beyond s.t s.bcnt s.par.msgWords
    obtain ⟨hbelow, hne⟩ := hall k hk
    exact (hbeyond.elim hbelow.not_ge hne).elim

theorem absorbBody_of_not_permuted {s : State} (hp : s.phase ≠ .permuted) : absorbBody s = .next s :=
  absorbLoop_of_not_permuted _ hp

theorem absorbBody_phase {s t : State} (hp : s.phase = .permuted ∨ s.phase = .absorbed)
    (h : absorbBody s = .next t) : t.phase = .absorbed := by
  obtain hp | hp := hp
  · exact (absorbBody_ends hp h).1
  · rw [absorbBody_of_not_permuted (by simp [hp])] at h
    cases h
    exact hp

/-- R170: from ABSORBED the finalization ends in DONE with every round done. -/
theorem finalize_ends {s : State} (hp : s.phase = .absorbed) :
    s.finalize.phase = .done ∧ s.finalize.rnd = BitVec.ofNat 32 s.rounds := by
  induction s, hp using rounds_induction with
  | last s hp hlast =>
    rw [finalize_of_lastRound hp hlast]
    exact ⟨finalStep_phase_of_lastRound hlast, hlast⟩
  | more s hp hmore ih =>
    rw [finalize_finalStep hp hmore]
    exact ih

theorem hash_body_ends {s t : State} (h : acceptedBody .hash s = .next t) :
    t.phase = .done ∧ t.rnd = BitVec.ofNat 32 s.rounds := by
  obtain ⟨u, hu, h⟩ := (andThen_eq_next _ _ _).1 h
  obtain ⟨v, hv, h⟩ := (andThen_eq_next _ _ _).1 h
  cases h
  obtain ⟨-, rfl⟩ := shuffleBody_next s.begin u hu
  obtain ⟨hdone, hrnd⟩ := finalize_ends (absorbBody_phase s.begin.permute_phase_cases hv)
  have hrounds : v.rounds = s.rounds := by
    obtain ⟨S, n, p, rfl⟩ := absorbBody_writes hv
    rfl
  exact ⟨hdone, hrnd.trans (by rw [hrounds])⟩

/-- Settles O13: a command that is not carried out touches no phase, and of those carried out each moves the phase as
its body does from a phase in which it is legal. -/
theorem phaseMovesAsListed : Obligations.PhaseMovesAsListed := by
  refine fun i s t h => ⟨fun ha => (congrArg State.phase (exec_of_not_accepts ha h) :), fun ha => ?accepted⟩
  have hlegal : legalIn i s.phase = true := ((accepts_iff i s).1 ha).2.1
  have hbody : acceptedBody i s = .next t := by rwa [exec_eq_gate, gate_of_accepts i s _ ha] at h
  refine ⟨?clr, ?init, ?shuffle, ?absorb1, ?absorb, ?fround, ?final, ?hash,
    fun hi => (congrArg State.phase (exec_column h)).trans (if_pos hi)⟩
  case clr => rintro rfl; cases hbody; rfl
  case init => rintro rfl; cases hbody; rfl
  case shuffle =>
    rintro rfl
    obtain ⟨u, hu, hbody⟩ := (andThen_eq_next _ _ _).1 hbody
    obtain ⟨-, rfl⟩ := shuffleBody_next s u hu
    cases hbody; rfl
  case absorb1 =>
    rintro rfl
    have hp : s.phase = .permuted := of_decide_eq_true hlegal
    obtain ⟨u, hu, hbody⟩ := (andThen_eq_next _ _ _).1 hbody
    obtain ⟨-, -, rfl⟩ := absorbStep_next s u hu
    cases hbody
    rw [← hp]; rfl
  case absorb =>
    rintro rfl
    have hp : s.phase = .permuted ∨ s.phase = .absorbed := by simpa [legalIn] using hlegal
    obtain ⟨u, hu, hbody⟩ := (andThen_eq_next _ _ _).1 hbody
    have hphase : u.phase = .absorbed := absorbBody_phase hp hu
    have ht (hp : s.phase = .permuted) : u.t = s.bcnt := (absorbBody_ends hp hu).2
    cases hbody
    exact ⟨hphase, ht⟩
  case fround =>
    rintro rfl
    have hp : s.phase = .absorbed := of_decide_eq_true hlegal
    cases hbody
    rw [← hp]; rfl
  case final =>
    rintro rfl
    have hp : s.phase = .absorbed ∨ s.phase = .done := by simpa [legalIn] using hlegal
    cases hbody
    refine ⟨?_, fun hp => (finalize_ends hp).2⟩
    obtain hp | hp := hp
    · exact (finalize_ends hp).1
    · rw [finalize_of_not_absorbed (by simp [hp])]; exact hp
  case hash => rintro rfl; exact hash_body_ends hbody

end Sys2Proof.Machine

/-! PROOF. Recorded errors (60_exceptions.md R202, R203, R206), the completion flag (R210) and the idle core (R218). -/

namespace Sys2Proof.Machine

open Sys2Proof

/-! ## The idle core -/

/-- Settles O25: neither a command to end nor an input to serve is left for the step. -/
theorem idleHoldsAllState : Obligations.IdleHoldsAllState := by
  intro s hr hi
  obtain ⟨-, -, hidle⟩ | ⟨i, hrunning, -⟩ | ⟨e, rest, hinbox, -⟩ := step_cases s
  · exact hidle
  · rw [hr] at hrunning; cases hrunning
  · rw [hi] at hinbox; cases hinbox

/-! ## The completion flag -/

/-- Every command that is carried out completes, and so sets `IP`, but `CLR`, which clears it (R184, R210). -/
theorem acceptedBody_ip {i : Instr} {s t : State} (h : acceptedBody i s = .next t) :
    t.ip = decide (i ≠ .clr) := by
  cases i with
  | nop | init | ksnext | mix | fround | final | clr => cases h; rfl
  | shuffle | absorb1 | absorb =>
    obtain ⟨_, -, h⟩ := (andThen_eq_next _ _ _).1 h
    cases h; rfl
  | hash =>
    obtain ⟨_, -, h⟩ := (andThen_eq_next _ _ _).1 h
    obtain ⟨_, -, h⟩ := (andThen_eq_next _ _ _).1 h
    cases h; rfl

/-- `CLR` is accepted in every state (R180, R181), so a command that is not is another one. -/
theorem ne_clr_of_not_accepts {i : Instr} {s : State} (ha : s.accepts i = false) : i ≠ .clr := by
  rintro rfl
  have haccepts : s.accepts .clr = true := (accepts_iff .clr s).2 ⟨.inr rfl, rfl, nofun⟩
  rw [haccepts] at ha; cases ha

/-- A command that is not ignored is refused, which sets `IP` (R205), or carried out. -/
theorem exec_ip {i : Instr} {s t : State} (h : exec i s = .next t) :
    t.ip = if s.err = true ∧ i ≠ .clr then s.ip else decide (i ≠ .clr) := by
  by_cases hignored : s.err = true ∧ i ≠ .clr
  · obtain ⟨he, hi⟩ := hignored
    rw [exec_of_err he hi] at h
    cases h
    exact (if_pos ⟨he, hi⟩).symm
  · rw [if_neg hignored]
    rw [exec_eq_gate] at h
    obtain ⟨he, hi, -⟩ | ⟨-, -, ha, hg⟩ | ⟨-, -, -, -, ha, hg⟩ | ⟨-, hg⟩ := gate_cases i s (acceptedBody i)
    · exact absurd ⟨he, hi⟩ hignored
    · rw [hg] at h; cases h; exact (decide_eq_true (ne_clr_of_not_accepts ha)).symm
    · rw [hg] at h; cases h; exact (decide_eq_true (ne_clr_of_not_accepts ha)).symm
    · exact acceptedBody_ip (hg.symm.trans h)

/-- Settles O14: `IP` is what `exec_ip` says, and no command writes `IE`. -/
theorem completionSetsIp : Obligations.CompletionSetsIp := by
  intro i s t h
  have hie : t.ie = s.ie := (congrArg State.ie (exec_column h) :)
  exact ⟨exec_ip h, by rw [State.irq, hie]⟩

/-! ## Commands out of sequence -/

/-- The phases in which a command is out of sequence, as R203 lists them. -/
theorem legalIn_eq_false_iff (i : Instr) (p : Phase) :
    legalIn i p = false ↔
      (i = .shuffle ∧ p ≠ .ready) ∨ (i = .absorb1 ∧ p ≠ .permuted) ∨
      (i = .absorb ∧ p ≠ .permuted ∧ p ≠ .absorbed) ∨ (i = .fround ∧ p ≠ .absorbed) ∨
      (i = .final ∧ p ≠ .absorbed ∧ p ≠ .done) := by
  cases i with
  | _ => simp [legalIn]

/-- Only a refused command records a code: those carried out keep `ERRC`, and `CLR` clears it (R87, R184). -/
theorem acceptedBody_errc {i : Instr} {s t : State} (h : acceptedBody i s = .next t) :
    t.errc = if i = .clr then .none else s.errc := by
  by_cases hi : i = .clr
  · subst hi; cases h; rfl
  · rw [if_neg hi]
    exact (congrArg State.errc (acceptedBody_column h)).trans (if_pos ⟨rfl, hi⟩)

/-- A command that is legal in the phase does not record `E_SEQ`. -/
theorem exec_errc_ne_seq_of_legal {i : Instr} {s t : State} (hl : legalIn i s.phase = true)
    (hs : s.errc ≠ .seq) (h : exec i s = .next t) : t.errc ≠ .seq := by
  rw [exec_eq_gate] at h
  obtain ⟨-, -, -, hg⟩ | ⟨-, hillegal, -⟩ | ⟨-, -, -, -, -, hg⟩ | ⟨-, hg⟩ :=
    gate_cases i s (acceptedBody i)
  · rw [hg] at h; cases h; exact hs
  · rw [hl] at hillegal; cases hillegal
  · rw [hg] at h; cases h; exact nofun
  · rw [acceptedBody_errc (hg.symm.trans h)]
    split
    · exact nofun
    · exact hs

/-- Settles O15: the phases R203 lists are those in which the command is not legal; it is refused there, and nowhere
else with `E_SEQ`. -/
theorem outOfSequenceIsRecorded : Obligations.OutOfSequenceIsRecorded := by
  intro i s t he h
  refine ⟨fun hseq => ?refused, fun ht hs => (legalIn_eq_false_iff i s.phase).1 ?converse⟩
  case refused =>
    obtain ⟨-, hclr⟩ := clrReturnsFromError
    rw [exec_of_not_legal he ((legalIn_eq_false_iff i s.phase).2 hseq)] at h
    cases h
    exact ⟨rfl, fun j hj => exec_of_err rfl hj, _, hclr _, rfl⟩
  case converse => exact Bool.eq_false_iff.2 fun hl => exec_errc_ne_seq_of_legal hl hs h ht

/-! ## Words at the port -/

/-- A write to `CMD` that is not early is answered `ok`, and does what the word issued does. -/
theorem servesTo_write_cmd {s t : State} {cw : Word} (hr : s.running = none)
    (h : issue { s with inbox := [], resp := some .ok } cw = .next { t with inbox := [], resp := some .ok }) :
    s.servesTo (.write 0x30 8 cw) .ok t :=
  (step_of_write_cmd (s := s.withAccess (.write 0x30 8 cw)) hr rfl).trans h

/-- R180 case 1: while `ERR = 1` a word other than that of `CLR` is ignored undecoded. -/
theorem issue_of_err {s : State} {cw : Word} (he : s.err = true) (hcw : cw ≠ encode .clr) :
    issue s cw = .next s := by
  rw [issue, he, decide_eq_true hcw]
  rfl

/-- R180 case 2: while `ERR = 0` a word the decoder rejects is recorded. -/
theorem issue_of_decode_error {s : State} {cw : Word} {e : DecodeError} (he : s.err = false)
    (hd : decode cw = .error e) : issue s cw = .next (s.raiseError .opc cw) := by
  rw [issue, he, hd]
  rfl

/-- With no early input after it, the word of `CLR` clears the error (R184). -/
theorem issue_clr {s : State} (hearly : s.nextIsEarly = false) :
    issue s (encode .clr) = .next s.clearError := by
  obtain ⟨-, hclr⟩ := clrReturnsFromError
  rw [issue_encode_eq_ite, hearly, Bool.and_false]
  exact hclr s

/-- The decoder rejects the words R202 lists. -/
theorem exists_decode_error {cw : Word}
    (h : cw.toNat / 256 ≠ 0 ∨ cw.toNat % 256 ∉ [0, 1, 2, 3, 4, 5, 6, 7, 8, 9, 15]) :
    ∃ e, decode cw = .error e := by
  obtain ⟨hreserved, hopcode⟩ := illegalWordsAreRejectedByName cw
  by_cases hr : cw.toNat / 256 = 0
  · have hgap : cw.toNat % 256 ∉ [0, 1, 2, 3, 4, 5, 6, 7, 8, 9, 15] := h.resolve_left (not_not_intro hr)
    simp only [List.mem_cons, List.not_mem_nil] at hgap
    exact ⟨_, hopcode.2 ⟨hr, by omega⟩⟩
  · exact ⟨_, hreserved.2 hr⟩

/-- Settles O16: the decoder rejects the word, and the port records it. -/
theorem illegalWordIsRecorded : Obligations.IllegalWordIsRecorded := by
  intro s cw hr he hcw
  obtain ⟨e, hd⟩ := exists_decode_error hcw
  exact servesTo_write_cmd hr (issue_of_decode_error he hd)

/-- Settles O17: the port ignores every word but that of `CLR`, and the other accesses do not look at `ERR`. -/
theorem onlyClrWhileErr : Obligations.OnlyClrWhileErr := by
  intro s hr he
  exact ⟨fun cw hcw => servesTo_write_cmd hr (issue_of_err he hcw), servesTo_write_cmd hr (issue_clr rfl),
    fun v => servesTo_write (l := .ks) hr rfl rfl nofun rfl,
    fun v => servesTo_write (l := .status) hr rfl rfl nofun rfl,
    servesTo_read (l := .errinfo) hr rfl rfl⟩

end Sys2Proof.Machine

/-! PROOF. The reset event (70_reset_and_hazards.md R230, R231; 10_state.md R44), and the canonical form of the two
memory lists along a run (20_memory.md R37, R38; log 18). -/

namespace Sys2Proof.Machine

open Sys2Proof

/-! ## The reset event -/

@[simp] theorem State.resetEvent_busy (s : State) : s.resetEvent.busy = false := rfl
@[simp] theorem State.resetEvent_irq (s : State) : s.resetEvent.irq = false := rfl

/-- A reset event is served while no command is in execution, and while one is when it comes before its end (R230). -/
theorem step_of_reset {s : State} {early : Bool} {rest : List Input}
    (hi : s.inbox = { event := .reset, early := early } :: rest) (h : s.running = none ∨ early = true) :
    step s = .next { s with inbox := rest }.resetEvent := by
  obtain hr | rfl := h
  · simp [step, advance, serve, State.busy, hr, hi]
  · simp [step, advance, serve, hi]

/-- Settles O26: the step serves the reset event, and the state it leaves differs from the state after reset in
the fields of the model's own only (the parameters, the inputs to come and the two counts). -/
theorem resetEventClearsEveryRegister : Obligations.ResetEventClearsEveryRegister := by
  intro s early rest hi h
  refine ⟨_, step_of_reset hi h, fun j _ => readS_zeros j, ?_⟩
  simp [Memory.byte?]

/-! ## The canonical form of the memories -/

/-- Both memory lists have their canonical form. Unlike `State.memoriesHold` this says nothing of where the
addresses lie, so it needs nothing of the parameters or of the phase. -/
def State.memoriesCanonical (s : State) : Prop := Memory.wf s.msg = true ∧ Memory.wf s.ord = true

theorem write_memoriesCanonical {s t : State} {v : Word} {l : Location} (h : writeLoc s v l = some t)
    (hs : s.memoriesCanonical) : t.memoriesCanonical := by
  obtain ⟨hmsg, hord⟩ := hs
  have hordEq : t.ord = s.ord := (congrArg State.ord (writeLoc_cases s t v l h).1 :)
  unfold State.memoriesCanonical
  rw [hordEq]
  obtain hmsgEq | ⟨w, -, hmsgEq⟩ := writeLoc_msg h
  · rw [hmsgEq]; exact ⟨hmsg, hord⟩
  · rw [hmsgEq]; exact ⟨Memory.putWord_wf _ _ _ hmsg, hord⟩

/-- Reset empties both memories, `SHUFFLE` writes `ORD`, a write at the port may write a word of `MSG`, and no
other move touches a memory. -/
theorem Move.keeps_memoriesCanonical {s t : State} (h : Move s t) (hs : s.memoriesCanonical) :
    t.memoriesCanonical := by
  obtain ⟨hmsg, hord⟩ := hs
  cases h with
  | reset => exact reset_memory_wf
  | permute => exact ⟨hmsg, Memory.putIndices_wf _ _ _ hord⟩
  | write _ v l _ _ h => exact write_memoriesCanonical h ⟨hmsg, hord⟩
  | port | start | finish | refuse | complete | begin | drawKs | mixOperands | absorb | round | clear =>
    exact ⟨hmsg, hord⟩

/-- Settles O50: every move a step is made of keeps the canonical form. -/
theorem stepsKeepMemoriesCanonical : Obligations.StepsKeepMemoriesCanonical := by
  intro s t hmsg hord h
  exact (step_moves h).keep (fun _ _ => Move.keeps_memoriesCanonical) ⟨hmsg, hord⟩

end Sys2Proof.Machine
